-- ==== Sys2Proof/Word.lean ====
section
/-! DEFINITION. The two number types of the block: wire words and fixed-point values. -/

namespace Sys2Proof

/-- A WORD: an unsigned integer of `WORD_BITS` bits (R13, R70), with the bit operations of `Nat`.
`WORD_BITS` is a parameter (`PAYLOAD_BITS + 4`), so the width is a well-formedness check and not
part of the type (DESIGN CHOICE, log 3). -/
abbrev Word := Nat

/-- An FX value, held as its raw two's-complement integer, `raw / 2^FX_FRAC` being the real number
it stands for (R17). The rules add, subtract and multiply it exactly and then clamp, so it is an
integer whose range [FX_MIN, FX_MAX] is an invariant (DESIGN CHOICE, log 4). -/
abbrev Fx := Int

end Sys2Proof
end

