-- ==== Sys2Proof/Config.lean ====
section
/-! DEFINITION. The configuration of the block (R10, R11, R12), the OPEN parameters among it. -/

namespace Sys2Proof

/-- `PID_VARIANT` (R10, R151). -/
inductive PidVariant
  | permissive
  | strict
deriving DecidableEq, Repr, Inhabited

/-- `ACT_SIGN` (R10, R170): `plus` adds the correction to the divider state, `minus` subtracts it. -/
inductive ActSign
  | plus
  | minus
deriving DecidableEq, Repr, Inhabited

/-- `ACT_KIND` (R10): names the actuator and changes no rule. -/
inductive ActKind
  | intDivider
  | fracMultiplier
deriving DecidableEq, Repr, Inhabited

/-- The parameters of rule R10, as numbers, before the constraints are checked. -/
structure RawConfig where
  /-- `DEGREE`, the number of neighbor links -/
  degree : Nat
  /-- `PAYLOAD_BITS` -/
  payloadBits : Nat
  /-- `B`, the capacity of every Elastic Buffer -/
  b : Nat
  /-- `K`, the most words read per link per tick -/
  k : Nat
  /-- `LIVE_THRESHOLD` -/
  liveThreshold : Nat
  /-- `ENABLE_MASK`, bit i for link i -/
  enableMask : Nat
  /-- `CNT_BITS` -/
  cntBits : Nat
  /-- `FX_BITS` -/
  fxBits : Nat
  /-- `FX_FRAC` -/
  fxFrac : Nat
  kp : Fx
  ki : Fx
  kd : Fx
  pidVariant : PidVariant
  divMin : Nat
  divMax : Nat
  divInit : Nat
  actSign : ActSign
  actKind : ActKind
deriving DecidableEq, Repr

namespace RawConfig

/-- `WORD_BITS = PAYLOAD_BITS + 4` (R10, R70). -/
def wordBits (c : RawConfig) : Nat := c.payloadBits + 4

/-- `PAYLOAD_MASK = 2^PAYLOAD_BITS − 1` (R10). -/
def payloadMask (c : RawConfig) : Nat := 2 ^ c.payloadBits - 1

/-- `LIVE_MAX`, the value at which a liveness counter saturates (R24). -/
def liveMax (c : RawConfig) : Nat := c.liveThreshold

/-- `FX_MAX = 2^(FX_BITS−1) − 1` (R17). -/
def fxMax (c : RawConfig) : Int := 2 ^ (c.fxBits - 1) - 1

/-- `FX_MIN = −2^(FX_BITS−1)` (R17). -/
def fxMin (c : RawConfig) : Int := -2 ^ (c.fxBits - 1)

/-- A raw value is one of the FX values (R17). -/
abbrev isFx (c : RawConfig) (z : Int) : Prop := c.fxMin ≤ z ∧ z ≤ c.fxMax

/-- The constraints of rule R10 and the one that rule R11 adds. -/
abbrev WellFormed (c : RawConfig) : Prop :=
  (1 ≤ c.degree ∧ c.degree ≤ 8) ∧ 1 ≤ c.payloadBits ∧ 1 ≤ c.b ∧ 1 ≤ c.k ∧ 1 ≤ c.liveThreshold ∧
  c.enableMask < 2 ^ c.degree ∧ 1 ≤ c.cntBits ∧ c.fxFrac < c.fxBits ∧
  c.isFx c.kp ∧ c.isFx c.ki ∧ c.isFx c.kd ∧
  (c.divMin ≤ c.divInit ∧ c.divInit ≤ c.divMax) ∧
  c.divMax < 2 ^ (c.fxBits - c.fxFrac - 1) ∧
  c.degree * c.b < 2 ^ (c.fxBits - c.fxFrac - 1)

end RawConfig

/-- A configuration with the proof that it is well formed: "A model refuses a configuration that is
not well formed" (R11), so none can be built. -/
structure Config extends RawConfig where
  wf : toRawConfig.WellFormed
deriving DecidableEq, Repr

namespace Config

/-- Accepts a well-formed configuration and refuses every other (R11). -/
def ofRaw? (c : RawConfig) : Option Config :=
  if h : c.WellFormed then some { toRawConfig := c, wf := h } else none

/-- The gain `KP`: OPEN (D19), any 64-bit FX value; no body, so nothing can rest on its value (log 1). -/
opaque openKp : BitVec 64

/-- The gain `KI`: OPEN (D19), log 1. -/
opaque openKi : BitVec 64

/-- The gain `KD`: OPEN (D19), log 1. -/
opaque openKd : BitVec 64

/-- `ACT_SIGN`: OPEN (D21), log 1. -/
opaque openActSign : ActSign

/-- `DIV_INIT − DIV_MIN` for the default range 90 to 110: OPEN (D22), log 1. -/
opaque openDivInitOffset : Fin 21

/-- A free value: what FC_RUN takes as its setpoint when the target is an integer to which R17 gives no
FX value; no body, so nothing can rest on it (log 32). -/
opaque freeSetpoint : Nat → Fx

/-- The defaults of rule R10, with the OPEN parameters left open. -/
def defaultRaw : RawConfig where
  degree := 4
  payloadBits := 28
  b := 64
  k := 4
  liveThreshold := 3
  enableMask := 0b1111
  cntBits := 32
  fxBits := 64
  fxFrac := 32
  kp := openKp.toInt
  ki := openKi.toInt
  kd := openKd.toInt
  pidVariant := .permissive
  divMin := 90
  divMax := 110
  divInit := 90 + openDivInitOffset.val
  actSign := openActSign
  actKind := .intDivider

/-- A signed 64-bit pattern is an FX value of the default format. -/
theorem isFx_toInt (v : BitVec 64) : defaultRaw.isFx v.toInt := by
  have h1 := BitVec.toInt_lt (x := v)
  have h2 := BitVec.le_toInt (x := v)
  simp only [RawConfig.isFx, RawConfig.fxMin, RawConfig.fxMax, defaultRaw]
  norm_num at *
  omega

theorem defaultRaw_wellFormed : defaultRaw.WellFormed := by
  have h := openDivInitOffset.isLt
  refine ⟨by decide, by decide, by decide, by decide, by decide, by decide, by decide, by decide,
    isFx_toInt _, isFx_toInt _, isFx_toInt _, ⟨?_, ?_⟩, by decide, by decide⟩
  · simp [defaultRaw]
  · simp only [defaultRaw]; omega

/-- The configuration of `Machine.State.reset` (R10's column "Default"). -/
def default : Config := { toRawConfig := defaultRaw, wf := defaultRaw_wellFormed }

end Config

end Sys2Proof
end

