-- ==== Sys2Proof/Syntax.lean ====
section
/-! DEFINITION. Messages, result codes, halt causes, and `Instr`: one constructor per row of
`spec/opcode_table.json` (R70 to R84). -/

namespace Sys2Proof

/-- A Message (R18). Field widths are checked by `Message.fits`. -/
inductive Message
  | sync
  | data (neighbor payload : Nat)
deriving DecidableEq, Repr, Inhabited

/-- The result of a tick: `ok` is `Ok`, every other name `e` is `Err(e)` (R28, R78). -/
inductive ResultCode
  | ok
  | syncMessageFromUserCode
  | invalidNeighbor
  | tideFifoFull
  | frequencyControllerError
  | decodeError
  | tickOverrun
deriving DecidableEq, Repr, Inhabited

/-- The halt cause `HALT` (R29, R80). -/
inductive HaltCause
  | none
  | tideFifoFull
  | tickOverrun
deriving DecidableEq, Repr, Inhabited

/-- Where a pattern of bits stands, which decides what it means: a wire word, a word on the local
producer channel (R77), a result code (R78), a halt cause (R80). -/
inductive Place
  | wire
  | producer
  | resultCode
  | haltCause
deriving DecidableEq, Repr, Inhabited

/-- The rows of the opcode table, in its order. -/
inductive Instr
  -- wire words (R70 to R76)
  | sync
  | data (neighbor payload : Nat)
  | dataNc (neighbor payload : Nat)
  -- words on the local producer channel (R77); `tag` is bit 0, which T1 ignores
  | userSync
  | userBadnbr (neighbor payload : Nat) (tag : Bool)
  | userData (neighbor payload : Nat) (tag : Bool)
  -- result codes (R78, R79)
  | ok
  | syncMessageFromUserCode
  | invalidNeighbor
  | tideFifoFull
  | frequencyControllerError
  | decodeError
  | tickOverrun
  | resultReserved (code : Nat)
  -- halt causes (R80)
  | haltNone
  | haltTideFifoFull
  | haltTickOverrun
  -- operations (R84)
  | encodeSync
  | encodeData (neighbor payload : Nat)
  | decode (word : Word)
  | ebNew
  | ebPush (link : Nat) (m : Message)
  | ebPop (link : Nat)
  | ebLevel (link : Nat)
  | ltWrite (words : List Word)
  | ltRead
  | ltActive
  | tick
  | tickT1
  | tickT2
  | tickT3
  | tickT4
  | tickT5
  | tickT6
  | tickT7
  | pidRun (setpoint measurement : Fx)
  | fcSetDegree (d : Nat)
  | fcRun (levels : List Nat)
  | fcDebug
  | dbgRead
  | reset
deriving DecidableEq, Repr

end Sys2Proof
end

