-- ==== Sys2Proof/WellFormed.lean ====
section
/-! DEFINITION. What makes a Message or an instruction well formed for a configuration: every
operand lies in the domain its rule gives it. -/

namespace Sys2Proof

/-- Every field of the Message fits its width (R18). -/
def Message.fits (c : RawConfig) : Message → Bool
  | .sync => true
  | .data n p => decide (n < 8) && decide (p < 2 ^ c.payloadBits)

/-- A Message as `EB[i]` may hold it: a `Data` Message carries the link number i (R43, R129). -/
def Message.taggedFor (i : Nat) : Message → Bool
  | .sync => true
  | .data n _ => n == i

/-- A number is a WORD (R13). -/
def isWord (c : RawConfig) (w : Word) : Bool := decide (w < 2 ^ c.wordBits)

/-- The operands of an instruction lie in their domains. The fields of a word class are those of a
word of that class (R75, R77); a link number is below DEGREE (R50); PID operands are FX values
(R151); the levels are DEGREE integers in [0, B] (R168); the words of LT_WRITE are DEGREE WORDs
(R111). The operands of ENCODE may have any width (R91), and FC_SET_DEGREE does not validate its
operand (R166, log 31). -/
def Instr.wellFormed (c : RawConfig) : Instr → Bool
  | .sync => true
  | .data n p => decide (n < 8) && decide (p < 2 ^ c.payloadBits)
  | .dataNc n p => decide (n < 8) && decide (p < 2 ^ c.payloadBits) && decide (¬ (n = 0 ∧ p = 0))
  | .userSync => true
  | .userBadnbr n p _ => decide (c.degree ≤ n) && decide (n < 8) && decide (p < 2 ^ c.payloadBits)
  | .userData n p t =>
      decide (n < c.degree) && decide (n < 8) && decide (p < 2 ^ c.payloadBits) &&
        decide (¬ (n = 0 ∧ p = 0 ∧ t = true))
  | .ok => true
  | .syncMessageFromUserCode => true
  | .invalidNeighbor => true
  | .tideFifoFull => true
  | .frequencyControllerError => true
  | .decodeError => true
  | .tickOverrun => true
  | .resultReserved code => decide (7 ≤ code) && decide (code < 256)
  | .haltNone => true
  | .haltTideFifoFull => true
  | .haltTickOverrun => true
  | .encodeSync => true
  | .encodeData _ _ => true
  | .decode w => isWord c w
  | .ebNew => true
  | .ebPush i m => decide (i < c.degree) && m.fits c
  | .ebPop i => decide (i < c.degree)
  | .ebLevel i => decide (i < c.degree)
  | .ltWrite ws => decide (ws.length = c.degree) && ws.all (isWord c)
  | .ltRead => true
  | .ltActive => true
  | .tick => true
  | .tickT1 => true
  | .tickT2 => true
  | .tickT3 => true
  | .tickT4 => true
  | .tickT5 => true
  | .tickT6 => true
  | .tickT7 => true
  | .pidRun sp m => decide (c.isFx sp) && decide (c.isFx m)
  | .fcSetDegree _ => true
  | .fcRun levels => decide (levels.length = c.degree) && levels.all (fun l => decide (l ≤ c.b))
  | .fcDebug => true
  | .dbgRead => true
  | .reset => true

end Sys2Proof
end

