-- ==== Sys2Proof/Decode.lean ====
section
/-! DEFINITION. The wire word's fields, DECODE and ENCODE of Messages (R70 to R94), the decoder from
a pattern of bits at a place to an instruction, and the encoder back. -/

namespace Sys2Proof

/-- `word[3:1]` (R73). -/
def neighborField (w : Word) : Nat := (w >>> 1) &&& 0b111

/-- `(word >> 4) & PAYLOAD_MASK` (R73). -/
def payloadField (c : RawConfig) (w : Word) : Nat := (w >>> 4) &&& c.payloadMask

/-- `word[0]` (R70). -/
def tagField (w : Word) : Bool := w &&& 1 == 1

/-- `(neighbor & 0b111) << 1 | (payload & PAYLOAD_MASK) << 4` (R72). -/
def packData (c : RawConfig) (n p : Nat) : Word :=
  ((n &&& 0b111) <<< 1) ||| ((p &&& c.payloadMask) <<< 4)

/-- ENCODE (R90, R91). -/
def encodeMessage (c : RawConfig) : Message → Word
  | .sync => 1
  | .data n p => packData c n p

/-- DECODE (R92): the test is on the whole word (R75). -/
def decodeMessage (c : RawConfig) (w : Word) : Message :=
  if w = 1 then .sync else .data (neighborField w) (payloadField c w)

/-- The 8-bit number of a result (R78). -/
def ResultCode.code : ResultCode → BitVec 8
  | .ok => 0x00
  | .syncMessageFromUserCode => 0x01
  | .invalidNeighbor => 0x02
  | .tideFifoFull => 0x03
  | .frequencyControllerError => 0x04
  | .decodeError => 0x05
  | .tickOverrun => 0x06

/-- A reader turns a code back into a name: 0x00 to 0x06 as R78 lists them, every other value is
`DecodeError` (R79). -/
def ResultCode.ofCode (v : BitVec 8) : ResultCode :=
  match v.toNat with
  | 0 => .ok
  | 1 => .syncMessageFromUserCode
  | 2 => .invalidNeighbor
  | 3 => .tideFifoFull
  | 4 => .frequencyControllerError
  | 6 => .tickOverrun
  | _ => .decodeError

/-- The 2-bit number of a halt cause (R80). -/
def HaltCause.code : HaltCause → BitVec 2
  | .none => 0
  | .tideFifoFull => 1
  | .tickOverrun => 2

/-- Why a pattern of bits names no row of the opcode table at its place. -/
inductive DecodeRefusal
  /-- wider than `WORD_BITS` bits, so not a wire word (R81) -/
  | notAWord
  /-- wider than 8 bits, so not a result code (R78) -/
  | notAResultCode
  /-- 3, "unused and never produced", or wider than 2 bits (R80) -/
  | notAHaltCause
deriving DecidableEq, Repr

/-- The class of a wire word: SYNC, DATA, DATA.nc, tested in that order (R75). -/
def decodeWire (c : RawConfig) (w : Word) : Except DecodeRefusal Instr :=
  if isWord c w then
    if w = 1 then .ok .sync
    else if tagField w then .ok (.dataNc (neighborField w) (payloadField c w))
    else .ok (.data (neighborField w) (payloadField c w))
  else .error .notAWord

/-- The class of a word on the producer channel: USER.SYNC, USER.BADNBR, USER.DATA, tested in that
order (R77). -/
def decodeProducer (c : RawConfig) (w : Word) : Except DecodeRefusal Instr :=
  if isWord c w then
    if w = 1 then .ok .userSync
    else if c.degree ≤ neighborField w then
      .ok (.userBadnbr (neighborField w) (payloadField c w) (tagField w))
    else .ok (.userData (neighborField w) (payloadField c w) (tagField w))
  else .error .notAWord

/-- The row of a result code (R78, R79). -/
def decodeResultCode (w : Nat) : Except DecodeRefusal Instr :=
  match w with
  | 0 => .ok .ok
  | 1 => .ok .syncMessageFromUserCode
  | 2 => .ok .invalidNeighbor
  | 3 => .ok .tideFifoFull
  | 4 => .ok .frequencyControllerError
  | 5 => .ok .decodeError
  | 6 => .ok .tickOverrun
  | n => if n < 256 then .ok (.resultReserved n) else .error .notAResultCode

/-- The row of a halt cause (R80). -/
def decodeHaltCause (w : Nat) : Except DecodeRefusal Instr :=
  match w with
  | 0 => .ok .haltNone
  | 1 => .ok .haltTideFifoFull
  | 2 => .ok .haltTickOverrun
  | _ => .error .notAHaltCause

/-- The decoder: total on every number at every place. -/
def decodeAt (c : RawConfig) (p : Place) (w : Nat) : Except DecodeRefusal Instr :=
  match p with
  | .wire => decodeWire c w
  | .producer => decodeProducer c w
  | .resultCode => decodeResultCode w
  | .haltCause => decodeHaltCause w

/-- The place where an instruction's bits stand; an operation has no bits (R84). -/
def Instr.place : Instr → Option Place
  | .sync => some .wire
  | .data _ _ => some .wire
  | .dataNc _ _ => some .wire
  | .userSync => some .producer
  | .userBadnbr _ _ _ => some .producer
  | .userData _ _ _ => some .producer
  | .ok => some .resultCode
  | .syncMessageFromUserCode => some .resultCode
  | .invalidNeighbor => some .resultCode
  | .tideFifoFull => some .resultCode
  | .frequencyControllerError => some .resultCode
  | .decodeError => some .resultCode
  | .tickOverrun => some .resultCode
  | .resultReserved _ => some .resultCode
  | .haltNone => some .haltCause
  | .haltTideFifoFull => some .haltCause
  | .haltTickOverrun => some .haltCause
  | .encodeSync => none
  | .encodeData _ _ => none
  | .decode _ => none
  | .ebNew => none
  | .ebPush _ _ => none
  | .ebPop _ => none
  | .ebLevel _ => none
  | .ltWrite _ => none
  | .ltRead => none
  | .ltActive => none
  | .tick => none
  | .tickT1 => none
  | .tickT2 => none
  | .tickT3 => none
  | .tickT4 => none
  | .tickT5 => none
  | .tickT6 => none
  | .tickT7 => none
  | .pidRun _ _ => none
  | .fcSetDegree _ => none
  | .fcRun _ => none
  | .fcDebug => none
  | .dbgRead => none
  | .reset => none

/-- A data word with bit 0 as given: 0 in the class DATA, 1 in DATA.nc (R75), ignored on the producer
channel (R77). -/
def packTagged (c : RawConfig) (n p : Nat) (tag : Bool) : Word :=
  packData c n p ||| (if tag then 1 else 0)

/-- The encoder: the bits of a well-formed instruction, from the encodings of 30_encoding.md;
`none` for an operation, which has none (R84). -/
def encode (c : RawConfig) : Instr → Option Nat
  | .sync => some 1
  | .data n p => some (packTagged c n p false)
  | .dataNc n p => some (packTagged c n p true)
  | .userSync => some 1
  | .userBadnbr n p t => some (packTagged c n p t)
  | .userData n p t => some (packTagged c n p t)
  | .ok => some 0
  | .syncMessageFromUserCode => some 1
  | .invalidNeighbor => some 2
  | .tideFifoFull => some 3
  | .frequencyControllerError => some 4
  | .decodeError => some 5
  | .tickOverrun => some 6
  | .resultReserved code => some code
  | .haltNone => some 0
  | .haltTideFifoFull => some 1
  | .haltTickOverrun => some 2
  | .encodeSync => none
  | .encodeData _ _ => none
  | .decode _ => none
  | .ebNew => none
  | .ebPush _ _ => none
  | .ebPop _ => none
  | .ebLevel _ => none
  | .ltWrite _ => none
  | .ltRead => none
  | .ltActive => none
  | .tick => none
  | .tickT1 => none
  | .tickT2 => none
  | .tickT3 => none
  | .tickT4 => none
  | .tickT5 => none
  | .tickT6 => none
  | .tickT7 => none
  | .pidRun _ _ => none
  | .fcSetDegree _ => none
  | .fcRun _ => none
  | .fcDebug => none
  | .dbgRead => none
  | .reset => none

/-- The place the opcode table's formats give a number of bits: RESULT8 for 8, HALT2 for 2, WIRE32
for every other width (log 10). -/
def placeOfBits (nbits : Nat) : Place :=
  match nbits with
  | 2 => .haltCause
  | 8 => .resultCode
  | _ => .wire

/-- The row the decoder reads from a pattern of `nbits` bits, the table's match values being those of
the default configuration (R77). A 32-bit word is read as the table's first rows read it, as a
wire word; the same word on the producer channel is read by `decodeProducer` (log 10). -/
def decodeTableWord (nbits w : Nat) : Option Instr :=
  match decodeAt Config.default.toRawConfig (placeOfBits nbits) w with
  | .ok i => some i
  | .error _ => none

end Sys2Proof
end

