-- ==== Sys2Proof/Machine/State.lean ====
section
/-! DEFINITION. The state of the block as plain data (10_state.md), the boundary it talks to, the
events of its environment, and the state after reset (R42). -/

namespace Sys2Proof.Machine

/-- The step sequencer `STEP` (R22). -/
inductive Seq
  | idle
  | t1
  | t2
  | t3
  | t4
  | t5
  | t6
  | t7
deriving DecidableEq, Repr, Inhabited

/-- How the actuator answers (R165). -/
inductive ActStatus
  | ready
  | busy
  | reject
deriving DecidableEq, Repr, Inhabited

/-- The debug snapshot `SNAP`, fields S0 to S8 (R37). -/
structure Snap where
  level : List Nat
  syncCnt : List Nat
  dataCnt : List Nat
  emptyCnt : List Nat
  lastError : ResultCode
  lastCorr : Fx
  divState : Fx
  degree : Nat
  halt : HaltCause
deriving DecidableEq, Repr

/-- What the environment holds out to the block (R226): the word in the producer mailbox (R52), the
words available on each link (R112), the actuator's answer (R165). Not block state (R40, log 7). -/
structure Ports where
  user : Option Word
  rx : List (List Word)
  act : ActStatus
deriving DecidableEq, Repr

/-- What the block gave to its ports in the current or latest tick (R120). Not block state (log 8). -/
structure Outs where
  /-- the words given to the links, `none` when nothing was written -/
  tx : Option (List Word)
  /-- the words given to the local consumer, in order -/
  fwd : List Word
  /-- the value given to the actuator -/
  actw : Option Int
  /-- `warn_empty[i]` -/
  warn : List Bool
deriving DecidableEq, Repr

/-- What an operation returns to its invoker (R84, R120); the model's own output (log 9). -/
inductive Ret
  | none
  | word (w : Word)
  | message (m : Message)
  | popped (m : Option Message)
  | buffer (q : List Message)
  | level (n : Nat)
  | bursts (rx : List (List Word))
  | flags (active : List Bool)
  | correction (c : Option Fx)
  /-- FC_RUN's `Ok` (true) or error (false) -/
  | fc (ok : Bool)
  | debug (lastCorr divState : Fx) (degree : Nat)
  | snapshot (s : Snap)
  | result (r : ResultCode)
  | haltCause (h : HaltCause)
  /-- a debug read that came during a tick (R62, R63) -/
  | notServed
deriving DecidableEq, Repr

/-- What the outside does next, one event a step of the model (log 5). -/
inductive Event
  /-- an operation of the opcode table is invoked -/
  | op (i : Instr)
  /-- a pattern of bits of the opcode table comes in at a place -/
  | code (p : Place) (w : Nat)
  /-- the tick trigger comes; the seven steps then run one a model step (R22, R198) -/
  | trigger
  /-- the environment changes what it holds out at the ports (R226) -/
  | present (p : Ports)
  /-- no event comes: the tick engine does the step that `STEP` names -/
  | wait
deriving DecidableEq, Repr

/-- The block has no fault that stops it: errors are returned results (R185, R195) and a fatal error
is the halted state, in which every trigger is answered (R196, R197). No rule raises a `Fault`, so
the type is empty: safe (log 28). -/
inductive Fault
deriving DecidableEq, Repr

/-- Why the model gives no next state. -/
inductive Refusal
  /-- Raised by `exec`'s arm of an instruction that has no meaning yet. Safe. -/
  | notModelled (mnemonic : String)
  /-- Raised by `step` when an operand, or a presented port value, is none that the block can be given:
  a link, a WORD, a Message, an FX value or a list of levels that does not exist (R13, R18, R50, R111,
  R112, R151, R168). Safe (log 18). -/
  | illFormed
  /-- Raised by `step` when a pattern of bits names no row at its place (R80, R81). Safe (log 18). -/
  | undecodable (why : DecodeRefusal)
  /-- Raised by `step` when a step of the tick is asked for while `STEP` names another: there is "no
  skipped step" (R22). Safe (log 17). -/
  | stepNotDue
deriving DecidableEq, Repr

/-- The state. The first group is the block's persistent state and the second its transient state
(R20); `cfg` is its configuration, which nothing changes (R38, log 1); the last four fields are the
boundary, the returned value and the events still to come. -/
structure State where
  cfg : Config
  /-- `EB[i]`, front first (R23) -/
  eb : List (List Message)
  /-- `LIVE[i]` (R24) -/
  live : List Nat
  /-- `SYNC_CNT[i]` (R30) -/
  syncCnt : List Nat
  /-- `DATA_CNT[i]` (R30) -/
  dataCnt : List Nat
  /-- `EMPTY_CNT[i]` (R31) -/
  emptyCnt : List Nat
  /-- `PREV_ERR` (R32) -/
  prevErr : Fx
  /-- `INTEG` (R32) -/
  integ : Fx
  /-- `DIV_STATE` (R33) -/
  divState : Fx
  /-- `FC_DEGREE` (R34) -/
  fcDegree : Nat
  /-- `LAST_CORR` (R35) -/
  lastCorr : Fx
  /-- `LAST_ERROR` (R36) -/
  lastError : ResultCode
  /-- `HALT` (R29) -/
  halt : HaltCause
  /-- `SNAP` (R37) -/
  snap : Snap
  /-- `SNAP` as of the last tick boundary (R63): what a fatal error leaves of it (R196) -/
  boundary : Snap
  /-- `STEP` (R22) -/
  seq : Seq
  /-- `OUT[i]` (R26) -/
  out : List Message
  /-- `RXM[i]` (R27) -/
  rxm : List (List Message)
  /-- `RESULT` (R28) -/
  result : ResultCode
  ports : Ports
  outs : Outs
  ret : Ret
  schedule : List Event
deriving DecidableEq, Repr

/-- The reset value of `DIV_STATE`, `fx_of_int(DIV_INIT)` (R33, R17). -/
def resetDivState (c : RawConfig) : Fx := (c.divInit : Int) * 2 ^ c.fxFrac

/-- The ports with nothing waiting and the actuator ready (log 19). -/
def Ports.quiet (c : RawConfig) : Ports where
  user := none
  rx := List.replicate c.degree []
  act := .ready

/-- Nothing written to any port (R211). -/
def Outs.nothing (c : RawConfig) : Outs where
  tx := none
  fwd := []
  actw := none
  warn := List.replicate c.degree false

/-- `SNAP` after reset (R37). -/
def resetSnap (c : RawConfig) : Snap where
  level := List.replicate c.degree (c.b / 2)
  syncCnt := List.replicate c.degree 0
  dataCnt := List.replicate c.degree 0
  emptyCnt := List.replicate c.degree 0
  lastError := .ok
  lastCorr := 0
  divState := resetDivState c
  degree := c.degree
  halt := .none

/-- The state after reset in configuration `c`: the tables of R42 and R37. `OUT`, `RXM` and `RESULT`
are "unspecified between ticks" there; the values here are the model's choice (log 19). -/
def State.resetIn (c : Config) : State where
  cfg := c
  eb := List.replicate c.degree (List.replicate (c.b / 2) .sync)
  live := List.replicate c.degree 0
  syncCnt := List.replicate c.degree 0
  dataCnt := List.replicate c.degree 0
  emptyCnt := List.replicate c.degree 0
  prevErr := 0
  integ := 0
  divState := resetDivState c.toRawConfig
  fcDegree := c.degree
  lastCorr := 0
  lastError := .ok
  halt := .none
  snap := resetSnap c.toRawConfig
  boundary := resetSnap c.toRawConfig
  seq := .idle
  out := List.replicate c.degree .sync
  rxm := List.replicate c.degree []
  result := .ok
  ports := Ports.quiet c.toRawConfig
  outs := Outs.nothing c.toRawConfig
  ret := .none
  schedule := []

/-- The machine right after reset (R210), in the default configuration (log 1). -/
def State.reset : State := State.resetIn Config.default

end Sys2Proof.Machine
end

