-- ==== Sys2Proof/Machine/Operands.lean ====
section
/-! DEFINITION. Where operands come from and where values go: the per-link register arrays (R20,
R21), the value returned to the invoker, and the port primitives of rule R16. -/

namespace Sys2Proof.Machine

/-- The array whose element i is `f i`, for every link i in ascending order (R14). -/
def perLink {α : Type} (n : Nat) (f : Nat → α) : List α := (List.range n).map f

namespace State

/-- The links 0 .. DEGREE−1 in ascending order (R14). -/
def links (s : State) : List Nat := List.range s.cfg.degree

/-- `EB[i]`. -/
def ebAt (s : State) (i : Nat) : List Message := s.eb.getD i []

/-- `LIVE[i]`. -/
def liveAt (s : State) (i : Nat) : Nat := s.live.getD i 0

/-- `SYNC_CNT[i]`. -/
def syncCntAt (s : State) (i : Nat) : Nat := s.syncCnt.getD i 0

/-- `DATA_CNT[i]`. -/
def dataCntAt (s : State) (i : Nat) : Nat := s.dataCnt.getD i 0

/-- `EMPTY_CNT[i]`. -/
def emptyCntAt (s : State) (i : Nat) : Nat := s.emptyCnt.getD i 0

/-- `OUT[i]`. -/
def outAt (s : State) (i : Nat) : Message := s.out.getD i .sync

/-- `RXM[i]`. -/
def rxmAt (s : State) (i : Nat) : List Message := s.rxm.getD i []

/-- Hands a value to the invoker of the operation (R84, log 9). -/
def answer (s : State) (r : Ret) : State := { s with ret := r }

/-- `OUT[i] <- m`. -/
def setOut (s : State) (i : Nat) (m : Message) : State := { s with out := s.out.set i m }

/-- `EB[i] <- q`. -/
def setEb (s : State) (i : Nat) (q : List Message) : State := { s with eb := s.eb.set i q }

/-- `STEP <- t`. -/
def goto (s : State) (t : Seq) : State := { s with seq := t }

/-- `UserRead()`: the waiting word, which the read removes from the mailbox (R16, R52). -/
def userRead (s : State) : Option Word × State :=
  (s.ports.user, { s with ports := { s.ports with user := none } })

/-- `LinkWrite(words)` (R16, R111). A second one in a tick replaces the record of the first: DESIGN
CHOICE (log 8). -/
def linkWrite (s : State) (words : List Word) : State :=
  { s with outs := { s.outs with tx := some words } }

/-- The burst a link gives in one read: what K poll attempts take of the waiting words, in arrival
order (R112). -/
def burst (s : State) (i : Nat) : List Word := (s.ports.rx.getD i []).take s.cfg.k

/-- `LinkRead()`: one burst per link; a word taken leaves the transport, the rest stay there for a
later tick (R16, R112). -/
def linkRead (s : State) : List (List Word) × State :=
  (perLink s.cfg.degree s.burst,
    { s with ports :=
      { s.ports with rx := perLink s.cfg.degree fun i => (s.ports.rx.getD i []).drop s.cfg.k } })

/-- `ConsWrite` of each word of a list, in order: each is appended to the output (R16, R136). -/
def consWrite (s : State) (words : List Word) : State :=
  { s with outs := { s.outs with fwd := s.outs.fwd ++ words } }

/-- The value given to the actuator in this tick, `none` when `ActApply` is not called (R120). A second
FC_RUN in a tick replaces the record of the first, also by `none`: DESIGN CHOICE (log 8, log 24). -/
def setActw (s : State) (v : Option Int) : State := { s with outs := { s.outs with actw := v } }

end State

end Sys2Proof.Machine
end

