-- ==== Sys2Proof/Machine/Flags.lean ====
section
/-! DEFINITION. Every flag-like value of the block (R25): the enable bit of a link, `ACTIVE[i]`, the
live-link count, the liveness counter they come from, the diagnostic counters. -/

namespace Sys2Proof.Machine

namespace State

/-- `ENABLE_MASK[i] = 1` (R10, R38). -/
def enabled (s : State) (i : Nat) : Bool := s.cfg.enableMask.testBit i

/-- `ACTIVE[i] = (LIVE[i] < LIVE_THRESHOLD)` (R25, R114). -/
def active (s : State) (i : Nat) : Bool := decide (s.liveAt i < s.cfg.liveThreshold)

/-- The number of links that are enabled and active (R139). -/
def liveCount (s : State) : Nat := s.links.countP fun i => s.enabled i && s.active i

end State

/-- The liveness counter after a burst of `n` words: back to 0 when something came, else one more up
to LIVE_MAX (R113). -/
def nextLive (c : RawConfig) (live n : Nat) : Nat := if n = 0 then min (live + 1) c.liveMax else 0

/-- A diagnostic counter after `n` more events: it wraps modulo 2^CNT_BITS (R30, R31, log 25). -/
def countUp (c : RawConfig) (cnt n : Nat) : Nat := (cnt + n) % 2 ^ c.cntBits

end Sys2Proof.Machine
end

