-- ==== Sys2Proof/Machine/Ops.lean ====
section
/-! DEFINITION. The operations every unit shares: raising an error (R16, R190, R196), which is this
block's exception entry, completing a tick (R141), which stands in for a return (R199), and the
inertness of a halted block (R29, R197). -/

namespace Sys2Proof.Machine

/-- The result code a halted block answers with, `Err(HALT)` (R121). -/
def haltResult : HaltCause → ResultCode
  | .none => .ok
  | .tideFifoFull => .tideFifoFull
  | .tickOverrun => .tickOverrun

/-- A snapshot in which a fatal error is recorded: S4 and S8 are written, "the snapshot fields S0 to S3
and S5 to S7 keep" their values (R196). -/
def Snap.halted (p : Snap) (cause : HaltCause) : Snap :=
  { p with lastError := haltResult cause, halt := cause }

namespace State

/-- `raise E` for a recoverable error: the first one raised in a tick is kept (R16, R190). -/
def raise (s : State) (e : ResultCode) : State :=
  { s with result := if s.result = .ok then e else s.result }

/-- `raise E` for a fatal error: what R196 lists, and the tick ends. `STEP` is `IDLE` afterwards, and
`Err(E)` goes to the invoker. The snapshot is that of the last tick boundary, so that what the T6 of
the tick that ends here wrote to it is not seen (R63, R196, log 30). -/
def raiseFatal (s : State) (cause : HaltCause) : State :=
  { s with
    result := haltResult cause
    halt := cause
    lastError := haltResult cause
    snap := s.boundary.halted cause
    boundary := s.boundary.halted cause
    seq := .idle
    ret := .result (haltResult cause) }

/-- `LAST_ERROR <- code` and its snapshot copy (R36, R141). -/
def recordError (s : State) (e : ResultCode) : State :=
  { s with lastError := e, snap := { s.snap with lastError := e } }

/-- A tick boundary: the snapshot as it stands is the one a debug reader sees from here on (R63). -/
def atBoundary (s : State) : State := { s with boundary := s.snap }

/-- The end of a tick: an error is recorded, `Ok` leaves `LAST_ERROR`, `STEP` returns to `IDLE`, the
result goes to the invoker (R141, R199). -/
def complete (s : State) : State :=
  ((if s.result = .ok then s else s.recordError s.result).atBoundary.goto .idle).answer (.result s.result)

/-- What a trigger does to a halted block: no port is read or written, no state changes, the answer
is `Err(HALT)` (R121, R197). -/
def haltedTick (s : State) : State :=
  { s with outs := Outs.nothing s.cfg.toRawConfig, ret := .result (haltResult s.halt) }

/-- While `HALT` is not `None` "the block does nothing" (R29): an operation that would change state
answers `Err(HALT)` and changes none (log 15). -/
def whenRunning (s : State) (f : State → State) : State :=
  if s.halt = .none then f s else s.answer (.result (haltResult s.halt))

end State

end Sys2Proof.Machine
end

