-- ==== Sys2Proof/Machine/Codec.lean ====
section
/-! DEFINITION. The Message Codec: ENCODE, DECODE (R90 to R95) and the wire-word classes, whose
meaning is what DECODE makes of the word (R75). -/

namespace Sys2Proof.Machine

/-- ENCODE of `Sync` (R90). -/
def execEncodeSync (s : State) : Host.Outcome State Fault Refusal :=
  .next (s.answer (.word (encodeMessage s.cfg.toRawConfig .sync)))

/-- ENCODE of `Data`, operands of any width (R91). -/
def execEncodeData (n p : Nat) (s : State) : Host.Outcome State Fault Refusal :=
  .next (s.answer (.word (encodeMessage s.cfg.toRawConfig (.data n p))))

/-- DECODE (R92). -/
def execDecode (w : Word) (s : State) : Host.Outcome State Fault Refusal :=
  .next (s.answer (.message (decodeMessage s.cfg.toRawConfig w)))

/-- The word of class SYNC decodes to `Sync` (R71, R75). -/
def execSync (s : State) : Host.Outcome State Fault Refusal :=
  .next (s.answer (.message .sync))

/-- A word of class DATA decodes to its fields (R73, R75). -/
def execData (n p : Nat) (s : State) : Host.Outcome State Fault Refusal :=
  .next (s.answer (.message (.data n p)))

/-- A word of class DATA.nc decodes as the DATA word with bit 0 cleared (R75, R76). -/
def execDataNc (n p : Nat) (s : State) : Host.Outcome State Fault Refusal :=
  .next (s.answer (.message (.data n p)))

end Sys2Proof.Machine
end

