-- ==== Sys2Proof/Machine/Codes.lean ====
section
/-! DEFINITION. Result codes (R78, R79, R185 to R191, R198) and halt causes (R80). The code of an
error the block can raise is that error being raised; every other code is what a reader makes of it
(log 11). -/

namespace Sys2Proof.Machine

/-- `Ok`: nothing is raised and LAST_ERROR keeps its value (R78, R141). -/
def execOk (s : State) : Host.Outcome State Fault Refusal :=
  .next (s.answer (.result .ok))

/-- Raises `SyncMessageFromUserCode`, recoverable (R186). -/
def execSyncMessageFromUserCode (s : State) : Host.Outcome State Fault Refusal :=
  .next (s.whenRunning fun s => (s.raise .syncMessageFromUserCode).answer (.result .syncMessageFromUserCode))

/-- Raises `InvalidNeighbor`, recoverable (R187). -/
def execInvalidNeighbor (s : State) : Host.Outcome State Fault Refusal :=
  .next (s.whenRunning fun s => (s.raise .invalidNeighbor).answer (.result .invalidNeighbor))

/-- Raises `TideFifoFull`, fatal (R188, R196). -/
def execTideFifoFull (s : State) : Host.Outcome State Fault Refusal :=
  .next (s.whenRunning fun s => s.raiseFatal .tideFifoFull)

/-- Raises `FrequencyControllerError`, recoverable (R189). -/
def execFrequencyControllerError (s : State) : Host.Outcome State Fault Refusal :=
  .next (s.whenRunning fun s => (s.raise .frequencyControllerError).answer (.result .frequencyControllerError))

/-- `DecodeError` is "not raised internally": it is the name a reader gets (R191, R79). -/
def execDecodeError (s : State) : Host.Outcome State Fault Refusal :=
  .next (s.answer (.result (ResultCode.ofCode 0x05)))

/-- Raises `TickOverrun`, fatal (R198, R196). -/
def execTickOverrun (s : State) : Host.Outcome State Fault Refusal :=
  .next (s.whenRunning fun s => s.raiseFatal .tickOverrun)

/-- A code 0x07 to 0xFF: a reader gets `DecodeError` (R79). -/
def execResultReserved (code : Nat) (s : State) : Host.Outcome State Fault Refusal :=
  .next (s.answer (.result (ResultCode.ofCode (BitVec.ofNat 8 code))))

/-- The halt cause `None`, as a reader of S8 gets it (R80). -/
def execHaltNone (s : State) : Host.Outcome State Fault Refusal :=
  .next (s.answer (.haltCause .none))

/-- The halt cause `TideFifoFull`, as a reader of S8 gets it (R80). -/
def execHaltTideFifoFull (s : State) : Host.Outcome State Fault Refusal :=
  .next (s.answer (.haltCause .tideFifoFull))

/-- The halt cause `TickOverrun`, as a reader of S8 gets it (R80). -/
def execHaltTickOverrun (s : State) : Host.Outcome State Fault Refusal :=
  .next (s.answer (.haltCause .tickOverrun))

end Sys2Proof.Machine
end

