-- ==== Sys2Proof/Machine/ElasticBuffer.lean ====
section
/-! DEFINITION. The Elastic Buffer: EB_NEW, EB_PUSH, EB_POP, EB_LEVEL (R100 to R107). -/

namespace Sys2Proof.Machine

/-- EB_NEW: floor(B/2) copies of `Sync` (R101). -/
def ebNew (c : RawConfig) : List Message := List.replicate (c.b / 2) .sync

/-- EB_PUSH: `none` is the refused push, which leaves the buffer as it is (R102). -/
def ebPush (c : RawConfig) (q : List Message) (m : Message) : Option (List Message) :=
  if c.b ≤ q.length then none else some (q ++ [m])

/-- EB_POP: the front, if any, and the rest (R103). -/
def ebPop : List Message → Option Message × List Message
  | [] => (none, [])
  | m :: q => (some m, q)

/-- EB_LEVEL (R104). -/
def ebLevel (q : List Message) : Nat := q.length

namespace State

/-- `level(EB[i])`. -/
def level (s : State) (i : Nat) : Nat := ebLevel (s.ebAt i)

/-- `EB_PUSH(EB[i], m)`, with the fatal error of a full buffer (R102). -/
def pushLink (s : State) (i : Nat) (m : Message) : State :=
  match ebPush s.cfg.toRawConfig (s.ebAt i) m with
  | some q => (s.setEb i q).answer .none
  | none => s.raiseFatal .tideFifoFull

/-- `EB_POP(EB[i])`, the popped Message returned (R103). -/
def popLink (s : State) (i : Nat) : State :=
  (s.setEb i (ebPop (s.ebAt i)).2).answer (.popped (ebPop (s.ebAt i)).1)

end State

/-- EB_NEW returns a fresh buffer (R101); it writes none of the block's buffers, which only reset
makes new (R107, R210, log 14). -/
def execEbNew (s : State) : Host.Outcome State Fault Refusal :=
  .next (s.answer (.buffer (ebNew s.cfg.toRawConfig)))

/-- EB_PUSH on the buffer of link `i` (R102). -/
def execEbPush (i : Nat) (m : Message) (s : State) : Host.Outcome State Fault Refusal :=
  .next (s.whenRunning fun s => s.pushLink i m)

/-- EB_POP on the buffer of link `i` (R103). -/
def execEbPop (i : Nat) (s : State) : Host.Outcome State Fault Refusal :=
  .next (s.whenRunning fun s => s.popLink i)

/-- EB_LEVEL of the buffer of link `i` (R104). -/
def execEbLevel (i : Nat) (s : State) : Host.Outcome State Fault Refusal :=
  .next (s.answer (.level (s.level i)))

end Sys2Proof.Machine
end

