-- ==== Sys2Proof/Machine/System.lean ====
section
/-! DEFINITION. What the outside invokes between ticks: DBG_READ (R205) and RESET (R210). -/

namespace Sys2Proof.Machine

namespace State

/-- What a debug read gets: the snapshot between ticks; during a tick it is not served (R62, R63). -/
def debugRead (s : State) : Ret := if s.seq = .idle then .snapshot s.snap else .notServed

/-- RESET: every piece of state gets its reset value, each buffer from EB_NEW (R42, R101, R210); no
port is written (R211), and what the environment holds out and will do stays (log 20). It may come at
any `STEP`, and then ends the tick in progress without a result: DESIGN CHOICE (log 29). -/
def afterReset (s : State) : State :=
  { State.resetIn s.cfg with
    eb := perLink s.cfg.degree fun _ => ebNew s.cfg.toRawConfig
    ports := s.ports
    schedule := s.schedule }

end State

/-- DBG_READ changes nothing (R205). -/
def execDbgRead (s : State) : Host.Outcome State Fault Refusal :=
  .next (s.answer s.debugRead)

/-- RESET, "the only way out of a halt" (R210). -/
def execReset (s : State) : Host.Outcome State Fault Refusal :=
  .next s.afterReset

end Sys2Proof.Machine
end

