-- ==== Sys2Proof/Machine/FixedPoint.lean ====
section
/-! DEFINITION. The fixed-point primitives of rule R17, on raw integers. -/

namespace Sys2Proof.Machine

/-- `clampfx`. -/
def clampFx (c : RawConfig) (z : Int) : Fx :=
  if z < c.fxMin then c.fxMin else if c.fxMax < z then c.fxMax else z

/-- `sat_add`. -/
def satAdd (c : RawConfig) (a b : Fx) : Fx := clampFx c (a + b)

/-- `sat_sub`. -/
def satSub (c : RawConfig) (a b : Fx) : Fx := clampFx c (a - b)

/-- `floor(z / 2^FX_FRAC)`: division by a positive number rounds toward minus infinity. -/
def floorFrac (c : RawConfig) (z : Int) : Int := z / 2 ^ c.fxFrac

/-- `sat_mul`: the exact product, floored, then clamped. -/
def satMul (c : RawConfig) (a b : Fx) : Fx := clampFx c (floorFrac c (a * b))

/-- `fx_of_int`. -/
def fxOfInt (c : RawConfig) (n : Int) : Fx := n * 2 ^ c.fxFrac

/-- `fx_floor`. -/
def fxFloor (c : RawConfig) (a : Fx) : Int := floorFrac c a

end Sys2Proof.Machine
end

