-- ==== Sys2Proof/Machine/Pid.lean ====
section
/-! DEFINITION. The PID primitive: PID_RUN (R150 to R158). -/

namespace Sys2Proof.Machine

/-- The error, `none` where the strict variant fails (R151). -/
def pidError (c : RawConfig) (setpoint measurement : Fx) : Option Fx :=
  if c.isFx (setpoint - measurement) then some (setpoint - measurement)
  else match c.pidVariant with
    | .permissive => some (clampFx c (setpoint - measurement))
    | .strict => none

/-- The output; the sums are taken left to right (R154). -/
def pidOutput (c : RawConfig) (error integral derivative : Fx) : Fx :=
  satAdd c (satAdd c (satMul c c.kp error) (satMul c c.ki integral)) (satMul c c.kd derivative)

namespace State

/-- The state PID_RUN leaves for an error `e`: integral and previous error (R152, R155). -/
def pidMove (s : State) (e : Fx) : State :=
  { s with integ := satAdd s.cfg.toRawConfig s.integ e, prevErr := e }

/-- The output PID_RUN returns for an error `e`: with the integral already updated (R152, R154) and
the derivative against the previous error (R153). -/
def pidValue (s : State) (e : Fx) : Fx :=
  pidOutput s.cfg.toRawConfig e (satAdd s.cfg.toRawConfig s.integ e) (satSub s.cfg.toRawConfig e s.prevErr)

/-- PID_RUN (R151 to R156). -/
def pidRun (s : State) (setpoint measurement : Fx) : Option Fx × State :=
  match pidError s.cfg.toRawConfig setpoint measurement with
  | none => (none, s)
  | some e => (some (s.pidValue e), s.pidMove e)

end State

/-- PID_RUN called by itself; the output, or `None`, is returned. -/
def execPidRun (setpoint measurement : Fx) (s : State) : Host.Outcome State Fault Refusal :=
  .next (s.whenRunning fun s =>
    (s.pidRun setpoint measurement).2.answer (.correction (s.pidRun setpoint measurement).1))

end Sys2Proof.Machine
end

