-- ==== Sys2Proof/Machine/FrequencyController.lean ====
section
/-! DEFINITION. The Frequency Controller: FC_SET_DEGREE, FC_RUN, FC_DEBUG (R165 to R180). -/

namespace Sys2Proof.Machine

/-- Step 1, the target: multiply first, then halve rounding down (R167). -/
def fcTarget (c : RawConfig) (degree : Nat) : Nat := degree * c.b / 2

/-- The setpoint of step 3, `fx_of_int(target)` (R169). R17 gives `fx_of_int(n)` only for
`|n| < 2^(FX_BITS−FX_FRAC−1)`, which R11 grants for every degree up to DEGREE; beyond, the setpoint is
a free FX value (log 32). -/
def fcSetpoint (c : RawConfig) (degree : Nat) : Fx :=
  if fcTarget c degree < 2 ^ (c.fxBits - c.fxFrac - 1) then fxOfInt c (fcTarget c degree)
  else clampFx c (Config.freeSetpoint (fcTarget c degree))

/-- Step 2, the sum of all levels (R168). -/
def fcActual (levels : List Nat) : Nat := levels.sum

/-- Step 4, the candidate divider state, clamped to the integer limits (R170). -/
def fcCandidate (c : RawConfig) (divState correction : Fx) : Fx :=
  let moved := match c.actSign with
    | .plus => satAdd c divState correction
    | .minus => satSub c divState correction
  min (max moved (fxOfInt c c.divMin)) (fxOfInt c c.divMax)

namespace State

/-- FC_SET_DEGREE: any number is stored, "the value is not validated" (R166, log 31). -/
def fcSetDegree (s : State) (d : Nat) : State := { s with fcDegree := d }

/-- `LAST_CORR <- correction` (R176). -/
def setLastCorr (s : State) (correction : Fx) : State := { s with lastCorr := correction }

/-- `DIV_STATE <- cand` (R172, R173). -/
def setDivState (s : State) (cand : Fx) : State := { s with divState := cand }

/-- Steps 5 and 6, by the actuator's answer: busy commits without a write (R172), ready writes and
commits (R173), a rejected write commits nothing and is an error (R174). -/
def fcApply (s : State) (cand : Fx) : Bool × State :=
  match s.ports.act with
  | .busy => (true, (s.setDivState cand).setActw none)
  | .ready => (true, (s.setDivState cand).setActw (some (fxFloor s.cfg.toRawConfig cand)))
  | .reject => (false, s.setActw (some (fxFloor s.cfg.toRawConfig cand)))

/-- FC_RUN (R167 to R176): `true` is `Ok`, `false` an error. -/
def fcRun (s : State) (levels : List Nat) : Bool × State :=
  let c := s.cfg.toRawConfig
  match s.pidRun (fcSetpoint c s.fcDegree) (fxOfInt c (fcActual levels)) with
  | (none, s1) => (false, s1.setActw none)
  | (some correction, s1) =>
      (s1.setLastCorr correction).fcApply (fcCandidate c s.divState correction)

/-- FC_DEBUG: last correction, divider state, degree (R179). -/
def fcDebug (s : State) : Ret := .debug s.lastCorr s.divState s.fcDegree

/-- All DEGREE levels, disabled links included (R140). -/
def levels (s : State) : List Nat := perLink s.cfg.degree s.level

end State

/-- FC_SET_DEGREE (R166). -/
def execFcSetDegree (d : Nat) (s : State) : Host.Outcome State Fault Refusal :=
  .next (s.whenRunning fun s => (s.fcSetDegree d).answer .none)

/-- FC_RUN on the given levels, the actuator answering as the ports say (R165). -/
def execFcRun (levels : List Nat) (s : State) : Host.Outcome State Fault Refusal :=
  .next (s.whenRunning fun s => (s.fcRun levels).2.answer (.fc (s.fcRun levels).1))

/-- FC_DEBUG changes nothing (R179). -/
def execFcDebug (s : State) : Host.Outcome State Fault Refusal :=
  .next (s.answer s.fcDebug)

end Sys2Proof.Machine
end

