-- ==== Sys2Proof/Machine/LinkTransport.lean ====
section
/-! DEFINITION. The Link Transport contract and the liveness counters: LT_WRITE, LT_READ, LT_ACTIVE
(R110 to R115). -/

namespace Sys2Proof.Machine

namespace State

/-- The liveness update from the bursts read (R113). -/
def updateLive (s : State) (rx : List (List Word)) : State :=
  { s with live := perLink s.cfg.degree fun i =>
      nextLive s.cfg.toRawConfig (s.liveAt i) (rx.getD i []).length }

/-- LT_READ (R112) with the liveness update that belongs to the same step (R113, log 13). -/
def ltRead (s : State) : List (List Word) × State :=
  (s.linkRead.1, s.linkRead.2.updateLive s.linkRead.1)

/-- LT_ACTIVE (R114). -/
def ltActive (s : State) : List Bool := perLink s.cfg.degree s.active

end State

/-- LT_WRITE: one word per link (R111). -/
def execLtWrite (words : List Word) (s : State) : Host.Outcome State Fault Refusal :=
  .next (s.whenRunning fun s => (s.linkWrite words).answer .none)

/-- LT_READ: one burst per link is taken and returned, the liveness counters follow (R112, R113). -/
def execLtRead (s : State) : Host.Outcome State Fault Refusal :=
  .next (s.whenRunning fun s => s.ltRead.2.answer (.bursts s.ltRead.1))

/-- LT_ACTIVE: the active flags, nothing written (R114). -/
def execLtActive (s : State) : Host.Outcome State Fault Refusal :=
  .next (s.answer (.flags s.ltActive))

end Sys2Proof.Machine
end

