-- ==== Sys2Proof/Machine/Tick.lean ====
section
/-! DEFINITION. The Channel Controller: the seven steps of a tick, the tick itself, its trigger, and
the classes of a producer word (R120 to R145, R198). -/

namespace Sys2Proof.Machine

/-- A decoded Message as link `i` stores it: the neighbor field becomes the link number (R129). -/
def retag (i : Nat) : Message → Message
  | .sync => .sync
  | .data _ p => .data i p

/-- How many Messages of a list are `Sync` (R130). -/
def syncCount (ms : List Message) : Nat := ms.countP (· == .sync)

/-- How many Messages of a list are `Data` (R130). -/
def dataCount (ms : List Message) : Nat := ms.countP (· != .sync)

/-- EB_PUSH of a list of Messages in order, up to the first that finds the buffer full; the flag says
that one did (R132, R133). -/
def pushAll (c : RawConfig) (q : List Message) : List Message → List Message × Bool
  | [] => (q, false)
  | m :: ms =>
    match ebPush c q m with
    | some q' => pushAll c q' ms
    | none => (q, true)

/-- What the drain of one link gives to the consumer: `Sync` is discarded, `Data` is encoded (R135,
R136). -/
def forwarded (c : RawConfig) : Option Message → List Word
  | some (.data n p) => [encodeMessage c (.data n p)]
  | some .sync => []
  | none => []

namespace State

/-- Before T1: RESULT, the outbound slots and the outputs of the tick are set, STEP goes to T1
(R121). -/
def tickStart (s : State) : State :=
  { s with
    result := .ok
    out := perLink s.cfg.degree fun _ => .sync
    outs := Outs.nothing s.cfg.toRawConfig
    seq := .t1
    ret := .none }

/-- T1 on a Sync word (R123). -/
def rejectSync (s : State) : State := s.raise .syncMessageFromUserCode

/-- T1 on a `Data` word that names no link (R124). -/
def rejectNeighbor (s : State) : State := s.raise .invalidNeighbor

/-- T1 on a `Data` word for link `n` (R125). -/
def stage (s : State) (n p : Nat) : State := s.setOut n (.data n p)

/-- T1 on a word of the producer, by what it decodes to (R122 to R125). -/
def ingest (s : State) (w : Word) : State :=
  match decodeMessage s.cfg.toRawConfig w with
  | .sync => s.rejectSync
  | .data n p => if s.cfg.degree ≤ n then s.rejectNeighbor else s.stage n p

/-- T1 (R122 to R126): the producer's word is read once and consumed, whatever becomes of it. -/
def t1 (s : State) : State :=
  let s' := match s.userRead with
    | (none, s1) => s1
    | (some w, s1) => s1.ingest w
  (s'.goto .t2).answer .none

/-- T2 (R127): one word on every link, unconditionally. -/
def t2 (s : State) : State :=
  ((s.linkWrite (perLink s.cfg.degree fun i => encodeMessage s.cfg.toRawConfig (s.outAt i))).goto .t3).answer .none

/-- The Messages link `i` received in this tick: decoded and retagged, in arrival order (R128, R129). -/
def received (s : State) (i : Nat) : List Message :=
  (s.burst i).map fun w => retag i (decodeMessage s.cfg.toRawConfig w)

/-- T3 (R128 to R131): every link is read, decoded, counted and tracked for liveness. -/
def t3 (s : State) : State :=
  let c := s.cfg.toRawConfig
  let s' := { s.ltRead.2 with
    rxm := perLink c.degree s.received
    syncCnt := perLink c.degree fun i => countUp c (s.syncCntAt i) (syncCount (s.received i))
    dataCnt := perLink c.degree fun i =>
      countUp c (s.dataCntAt i) (dataCount (s.received i)) }
  (s'.goto .t4).answer .none

/-- The pushes of T4 over a list of links in order, up to the first that fails (R132, R133). -/
def fillLinks (s : State) : List Nat → State × Bool
  | [] => (s, false)
  | i :: is =>
    if s.enabled i then
      match pushAll s.cfg.toRawConfig (s.ebAt i) (s.rxmAt i) with
      | (q, false) => (s.setEb i q).fillLinks is
      | (q, true) => (s.setEb i q, true)
    else s.fillLinks is

/-- T4 (R132, R133): fill, or halt at the first push that finds its buffer full. -/
def t4 (s : State) : State :=
  match s.fillLinks s.links with
  | (s', false) => (s'.goto .t5).answer .none
  | (s', true) => s'.raiseFatal .tideFifoFull

/-- What the drain of link `i` pops: nothing is tried on a disabled link (R134). -/
def drained (s : State) (i : Nat) : Option Message × List Message :=
  if s.enabled i then ebPop (s.ebAt i) else (none, s.ebAt i)

/-- `warn_empty[i]`: the link is enabled and its buffer was found empty (R137). -/
def starved (s : State) (i : Nat) : Bool := s.enabled i && (s.drained i).1.isNone

/-- T5 (R134 to R137): one pop per enabled link, `Data` forwarded in ascending link order, an empty
buffer warned of and counted. -/
def t5 (s : State) : State :=
  let c := s.cfg.toRawConfig
  let s' := s.consWrite (s.links.flatMap fun i => forwarded c (s.drained i).1)
  let s'' := { s' with
    eb := perLink c.degree fun i => (s.drained i).2
    emptyCnt := perLink c.degree fun i =>
      countUp c (s.emptyCntAt i) (if s.starved i then 1 else 0)
    outs := { s'.outs with warn := perLink c.degree s.starved } }
  (s''.goto .t6).answer .none

/-- T6 (R138): levels and counters into the snapshot, all links. -/
def t6 (s : State) : State :=
  let s' := { s with snap := { s.snap with
    level := s.levels
    syncCnt := perLink s.cfg.degree s.syncCntAt
    dataCnt := perLink s.cfg.degree s.dataCntAt
    emptyCnt := perLink s.cfg.degree s.emptyCntAt } }
  (s'.goto .t7).answer .none

/-- The frequency-control fields of the snapshot (R140, R179). -/
def snapshotFc (s : State) : State :=
  { s with snap := { s.snap with
    lastCorr := s.lastCorr, divState := s.divState, degree := s.fcDegree } }

/-- T7 up to the end of the tick (R139, R140): degree, FC_RUN, its error, the snapshot. -/
def correct (s : State) : State :=
  match (s.fcSetDegree s.liveCount).fcRun s.levels with
  | (true, s') => s'.snapshotFc
  | (false, s') => (s'.raise .frequencyControllerError).snapshotFc

/-- T7 and the completion of the tick (R139 to R141). -/
def t7 (s : State) : State := s.correct.complete

/-- A trigger while a tick is in progress: the tick is abandoned where it stands (R198). -/
def overrun (s : State) : State := s.raiseFatal .tickOverrun

/-- The seven steps in order; an overflow in T4 ends the tick there (R22, R133). -/
def sevenSteps (s : State) : State :=
  let filled := s.t1.t2.t3.t4
  if filled.halt = .none then filled.t5.t6.t7 else filled

/-- What a tick trigger does by itself (R121, R198): answers `Err(HALT)` when halted, is the fatal
re-entry when a tick is in progress, else starts the tick. -/
def triggered (s : State) : State :=
  if s.halt = .none then (if s.seq = .idle then s.tickStart else s.overrun) else s.haltedTick

/-- TICK, run to completion (R120, R121, R141). -/
def tick (s : State) : State :=
  if s.halt = .none then (if s.seq = .idle then s.tickStart.sevenSteps else s.overrun) else s.haltedTick

end State

/-- The Sync word on the producer channel, as T1 treats it (R77, R123; log 12). -/
def execUserSync (s : State) : Host.Outcome State Fault Refusal :=
  .next (s.whenRunning fun s => s.rejectSync.answer .none)

/-- A `Data` word with `neighbor >= DEGREE` on the producer channel, as T1 treats it (R77, R124). -/
def execUserBadnbr (_n _p : Nat) (_tag : Bool) (s : State) : Host.Outcome State Fault Refusal :=
  .next (s.whenRunning fun s => s.rejectNeighbor.answer .none)

/-- A `Data` word for link `n` on the producer channel, as T1 treats it (R77, R125). -/
def execUserData (n p : Nat) (_tag : Bool) (s : State) : Host.Outcome State Fault Refusal :=
  .next (s.whenRunning fun s => (s.stage n p).answer .none)

/-- TICK (R120). -/
def execTick (s : State) : Host.Outcome State Fault Refusal := .next s.tick

/-- TICK.T1 (R122). -/
def execTickT1 (s : State) : Host.Outcome State Fault Refusal := .next (s.whenRunning State.t1)

/-- TICK.T2 (R127). -/
def execTickT2 (s : State) : Host.Outcome State Fault Refusal := .next (s.whenRunning State.t2)

/-- TICK.T3 (R128). -/
def execTickT3 (s : State) : Host.Outcome State Fault Refusal := .next (s.whenRunning State.t3)

/-- TICK.T4 (R132). -/
def execTickT4 (s : State) : Host.Outcome State Fault Refusal := .next (s.whenRunning State.t4)

/-- TICK.T5 (R134). -/
def execTickT5 (s : State) : Host.Outcome State Fault Refusal := .next (s.whenRunning State.t5)

/-- TICK.T6 (R138). -/
def execTickT6 (s : State) : Host.Outcome State Fault Refusal := .next (s.whenRunning State.t6)

/-- TICK.T7 (R139 to R141). -/
def execTickT7 (s : State) : Host.Outcome State Fault Refusal := .next (s.whenRunning State.t7)

end Sys2Proof.Machine
end

