-- ==== Sys2Proof/Machine/Dispatch.lean ====
section
/-! DEFINITION. Which meaning each row of the opcode table has: one arm per constructor of `Instr`. -/

namespace Sys2Proof.Machine

/-- The meaning of an instruction. -/
def exec (i : Instr) (s : State) : Host.Outcome State Fault Refusal :=
  match i with
  | .sync => Sys2Proof.Machine.execSync s
  | .data n p => Sys2Proof.Machine.execData n p s
  | .dataNc n p => Sys2Proof.Machine.execDataNc n p s
  | .userSync => Sys2Proof.Machine.execUserSync s
  | .userBadnbr n p tag => Sys2Proof.Machine.execUserBadnbr n p tag s
  | .userData n p tag => Sys2Proof.Machine.execUserData n p tag s
  | .ok => Sys2Proof.Machine.execOk s
  | .syncMessageFromUserCode => Sys2Proof.Machine.execSyncMessageFromUserCode s
  | .invalidNeighbor => Sys2Proof.Machine.execInvalidNeighbor s
  | .tideFifoFull => Sys2Proof.Machine.execTideFifoFull s
  | .frequencyControllerError => Sys2Proof.Machine.execFrequencyControllerError s
  | .decodeError => Sys2Proof.Machine.execDecodeError s
  | .tickOverrun => Sys2Proof.Machine.execTickOverrun s
  | .resultReserved code => Sys2Proof.Machine.execResultReserved code s
  | .haltNone => Sys2Proof.Machine.execHaltNone s
  | .haltTideFifoFull => Sys2Proof.Machine.execHaltTideFifoFull s
  | .haltTickOverrun => Sys2Proof.Machine.execHaltTickOverrun s
  | .encodeSync => Sys2Proof.Machine.execEncodeSync s
  | .encodeData n p => Sys2Proof.Machine.execEncodeData n p s
  | .decode w => Sys2Proof.Machine.execDecode w s
  | .ebNew => Sys2Proof.Machine.execEbNew s
  | .ebPush link m => Sys2Proof.Machine.execEbPush link m s
  | .ebPop link => Sys2Proof.Machine.execEbPop link s
  | .ebLevel link => Sys2Proof.Machine.execEbLevel link s
  | .ltWrite words => Sys2Proof.Machine.execLtWrite words s
  | .ltRead => Sys2Proof.Machine.execLtRead s
  | .ltActive => Sys2Proof.Machine.execLtActive s
  | .tick => Sys2Proof.Machine.execTick s
  | .tickT1 => Sys2Proof.Machine.execTickT1 s
  | .tickT2 => Sys2Proof.Machine.execTickT2 s
  | .tickT3 => Sys2Proof.Machine.execTickT3 s
  | .tickT4 => Sys2Proof.Machine.execTickT4 s
  | .tickT5 => Sys2Proof.Machine.execTickT5 s
  | .tickT6 => Sys2Proof.Machine.execTickT6 s
  | .tickT7 => Sys2Proof.Machine.execTickT7 s
  | .pidRun sp mv => Sys2Proof.Machine.execPidRun sp mv s
  | .fcSetDegree d => Sys2Proof.Machine.execFcSetDegree d s
  | .fcRun levels => Sys2Proof.Machine.execFcRun levels s
  | .fcDebug => Sys2Proof.Machine.execFcDebug s
  | .dbgRead => Sys2Proof.Machine.execDbgRead s
  | .reset => Sys2Proof.Machine.execReset s

end Sys2Proof.Machine
end

