-- ==== Sys2Proof/Machine/Engine.lean ====
section
/-! DEFINITION. How the block and its outside take turns: the tick engine does the step that `STEP`
names, and an event of the environment is delivered (log 5, log 6). -/

namespace Sys2Proof.Machine

/-- The step of the tick that `STEP` names (R22). -/
def dueInstr : Seq → Option Instr
  | .idle => none
  | .t1 => some .tickT1
  | .t2 => some .tickT2
  | .t3 => some .tickT3
  | .t4 => some .tickT4
  | .t5 => some .tickT5
  | .t6 => some .tickT6
  | .t7 => some .tickT7

/-- What `STEP` must be for an instruction to be in order: only the steps of the tick ask for
anything (R22). -/
def dueSeq : Instr → Option Seq
  | .tickT1 => some .t1
  | .tickT2 => some .t2
  | .tickT3 => some .t3
  | .tickT4 => some .t4
  | .tickT5 => some .t5
  | .tickT6 => some .t6
  | .tickT7 => some .t7
  | _ => none

/-- The instruction may run now: a step of the tick only when `STEP` names it (R22, log 17). -/
def State.stepDue (s : State) (i : Instr) : Bool :=
  match dueSeq i with
  | none => true
  | some t => s.seq == t

/-- What the environment holds out is possible: WORDs, one list per link (R13, R112). -/
def Ports.wellFormed (c : RawConfig) (p : Ports) : Bool :=
  p.user.all (isWord c) && decide (p.rx.length = c.degree) && p.rx.all fun ws => ws.all (isWord c)

/-- The tick engine, when no event comes: the step `STEP` names, or nothing at `IDLE` (R206). -/
def engine (s : State) : Host.Outcome State Fault Refusal :=
  match dueInstr s.seq with
  | none => .next s
  | some i => exec i s

/-- An instruction is invoked: operands that do not exist (log 18) and a step out of its order (R22,
log 17) are refused. -/
def invoke (i : Instr) (s : State) : Host.Outcome State Fault Refusal :=
  if i.wellFormed s.cfg.toRawConfig then
    if s.stepDue i then exec i s else .refused .stepNotDue
  else .refused .illFormed

/-- What an event does to the state it comes in. -/
def deliver (e : Event) (s : State) : Host.Outcome State Fault Refusal :=
  match e with
  | .op i => invoke i s
  | .code p w =>
    match decodeAt s.cfg.toRawConfig p w with
    | .ok i => invoke i s
    | .error r => .refused (.undecodable r)
  | .trigger => .next s.triggered
  | .present p => if p.wellFormed s.cfg.toRawConfig then .next { s with ports := p } else .refused .illFormed
  | .wait => engine s

end Sys2Proof.Machine
end

