-- ==== Sys2Proof/Machine/Step.lean ====
section
/-! DEFINITION. One step of the model, and where the next instruction's bits are put. -/

namespace Sys2Proof.Machine

/-- One step: the next event of the environment comes, or, with none to come, the tick engine goes
on; between ticks it waits for a trigger (R212). -/
def step (s : State) : Host.Outcome State Fault Refusal :=
  match s.schedule with
  | [] => engine s
  | e :: es => deliver e { s with schedule := es }

/-- The bits of an instruction, put in front of the events to come: the very next `step` decodes and
runs it (log 21). -/
def State.withFetchWord (s : State) (nbits w : Nat) : State :=
  { s with schedule := .code (placeOfBits nbits) w :: s.schedule }

end Sys2Proof.Machine
end

