-- ==== Sys2Proof/Safety.lean ====
section
/-! DEFINITION. What holds of every state the block can be in (R43 and the ranges of 10_state.md), and
what a good state is (R197). -/

namespace Sys2Proof.Machine.State

/-- Every per-link array has one element per link (R20). -/
structure ShapeOk (s : State) : Prop where
  eb : s.eb.length = s.cfg.degree
  live : s.live.length = s.cfg.degree
  syncCnt : s.syncCnt.length = s.cfg.degree
  dataCnt : s.dataCnt.length = s.cfg.degree
  emptyCnt : s.emptyCnt.length = s.cfg.degree
  out : s.out.length = s.cfg.degree
  rxm : s.rxm.length = s.cfg.degree

/-- No buffer holds more than B Messages (R43, R105). -/
def LevelsOk (s : State) : Prop := ∀ q ∈ s.eb, q.length ≤ s.cfg.b

/-- Every Message the block holds fits its fields (R18). -/
structure MessagesFit (s : State) : Prop where
  eb : ∀ q ∈ s.eb, ∀ m ∈ q, m.fits s.cfg.toRawConfig
  out : ∀ m ∈ s.out, m.fits s.cfg.toRawConfig
  rxm : ∀ q ∈ s.rxm, ∀ m ∈ q, m.fits s.cfg.toRawConfig

/-- Every counter is in its range: `LIVE[i] <= LIVE_MAX` (R43), the diagnostic counters have
CNT_BITS bits (R30, R31). -/
structure CountersOk (s : State) : Prop where
  live : ∀ n ∈ s.live, n ≤ s.cfg.liveMax
  syncCnt : ∀ n ∈ s.syncCnt, n < 2 ^ s.cfg.cntBits
  dataCnt : ∀ n ∈ s.dataCnt, n < 2 ^ s.cfg.cntBits
  emptyCnt : ∀ n ∈ s.emptyCnt, n < 2 ^ s.cfg.cntBits

/-- The controller registers are in their ranges (R32, R33, R35, R43). -/
structure ControlOk (s : State) : Prop where
  prevErr : s.cfg.isFx s.prevErr
  integ : s.cfg.isFx s.integ
  lastCorr : s.cfg.isFx s.lastCorr
  divState : fxOfInt s.cfg.toRawConfig s.cfg.divMin ≤ s.divState ∧
    s.divState ≤ fxOfInt s.cfg.toRawConfig s.cfg.divMax

/-- `0 <= FC_DEGREE <= DEGREE` (R34, R43). FC_SET_DEGREE "is not validated" (R166), so this is kept apart
from `Inv`: an FC_SET_DEGREE invoked by itself can break it, no tick does (log 31). -/
def DegreeOk (s : State) : Prop := s.fcDegree ≤ s.cfg.degree

/-- A halted block is between ticks, its last error is the halt cause, the snapshot shows both (R196),
and the code `DecodeError` is stored nowhere (R79). -/
structure ErrorsOk (s : State) : Prop where
  idle : s.halt ≠ .none → s.seq = .idle
  cause : s.halt ≠ .none → s.lastError = haltResult s.halt
  snapHalt : s.snap.halt = s.halt
  snapError : s.snap.lastError = s.lastError
  lastError : s.lastError ≠ .decodeError
  result : s.result ≠ .decodeError

/-- Between ticks, and in a tick until its T6, the snapshot is that of the last tick boundary; after T6
it differs from that in S0 to S3 alone, which T6 wrote (R37, R63, R138). -/
structure SnapOk (s : State) : Prop where
  beforeT7 : s.seq ≠ .t7 → s.snap = s.boundary
  atT7 : s.snap = { s.boundary with
    level := s.snap.level, syncCnt := s.snap.syncCnt, dataCnt := s.snap.dataCnt,
    emptyCnt := s.snap.emptyCnt }

/-- The invariant that every step keeps. -/
structure Inv (s : State) : Prop where
  shape : s.ShapeOk
  levels : s.LevelsOk
  fit : s.MessagesFit
  counters : s.CountersOk
  control : s.ControlOk
  errors : s.ErrorsOk
  snap : s.SnapOk

/-- Every Message stored for link i carries the number i (R43, R129). -/
structure TagsOk (s : State) : Prop where
  eb : ∀ i, ∀ m ∈ s.ebAt i, m.taggedFor i
  rxm : ∀ i, ∀ m ∈ s.rxmAt i, m.taggedFor i

/-- A state that is not faulted: "a state with `HALT != None`" is "never a good final state" (R197). -/
def Good (s : State) : Prop := s.Inv ∧ s.halt = .none

/-- Some enabled link would hold more than B Messages once this tick's burst is pushed: the condition
under which the tick halts (R143, R221). -/
def Overflows (s : State) : Prop :=
  ∃ i < s.cfg.degree, s.enabled i = true ∧ s.cfg.b < s.level i + (s.burst i).length

/-- The block's registers, without the ports, outputs, returned value and events: what R121 means by
"changes no state". -/
def sameBlock (s t : State) : Prop :=
  t = { s with ports := t.ports, outs := t.outs, ret := t.ret, schedule := t.schedule }

end Sys2Proof.Machine.State
end

