-- ==== Sys2Proof/Certificates/Slice0/Obligations.lean ====
section
/-! DEFINITION. The statements for the provers. Each docstring names the rules it formalises. -/

open Sys2Proof Sys2Proof.Machine

/-! ### Encodings -/

/-- Words written out from the formats of 30_encoding.md decode to the rows they stand for. -/
def Obligations.WrittenOutWordsDecodeToTheirRows : Prop :=
  let c := Config.default.toRawConfig
  decodeAt c .wire 0b00000000000000000000000000000001 = .ok .sync ∧
  decodeAt c .wire 0b00000000000000000000001010100000 = .ok (.data 0 42) ∧
  decodeAt c .wire 0b00000000000000000000000000010011 = .ok (.dataNc 1 1) ∧
  decodeAt c .producer 0b00000000000000000000000000000001 = .ok .userSync ∧
  decodeAt c .producer 0b00000000000000000000000000011010 = .ok (.userBadnbr 5 1 false) ∧
  decodeAt c .producer 0b00001010101111001101111011110100 = .ok (.userData 2 0xABCDEF false) ∧
  decodeAt c .resultCode 0b00000100 = .ok .frequencyControllerError ∧
  decodeAt c .resultCode 0b00101010 = .ok (.resultReserved 0x2A) ∧
  decodeAt c .haltCause 0b10 = .ok .haltTickOverrun ∧
  decodeAt c .haltCause 0b11 = .error .notAHaltCause

/-- Decode undoes encode, for every well-formed instruction that has bits, in every configuration. -/
def Obligations.DecodingAnEncodedInstructionGivesItBack : Prop :=
  ∀ (c : Config) (i : Instr) (p : Place) (w : Nat),
    i.wellFormed c.toRawConfig = true → i.place = some p → encode c.toRawConfig i = some w →
      decodeAt c.toRawConfig p w = .ok i

/-- What the decoder reads is well formed and encodes to the very bits it was read from: no bit of an
encoding is dropped and no two patterns at a place share an instruction. -/
def Obligations.ADecodedPatternEncodesToItself : Prop :=
  ∀ (c : Config) (p : Place) (w : Nat) (i : Instr), decodeAt c.toRawConfig p w = .ok i →
    i.wellFormed c.toRawConfig = true ∧ i.place = some p ∧ encode c.toRawConfig i = some w

/-- R90, R91: the result of ENCODE, in arithmetic; it is a WORD, and its frame. -/
def Obligations.EncodePacksMaskedFields : Prop :=
  ∀ (s : State) (n p : Nat),
    exec .encodeSync s = .next { s with ret := .word 1 } ∧
    exec (.encodeData n p) s =
      .next { s with ret := .word (2 * (n % 8) + 16 * (p % 2 ^ s.cfg.payloadBits)) } ∧
    2 * (n % 8) + 16 * (p % 2 ^ s.cfg.payloadBits) < 2 ^ s.cfg.wordBits

/-- R92: the result of DECODE, in arithmetic, and its frame. -/
def Obligations.DecodeTestsTheWholeWord : Prop :=
  ∀ (s : State) (w : Word),
    exec (.decode w) s = .next { s with
      ret := .message (if w = 1 then .sync
        else .data (w / 2 % 8) (w / 16 % 2 ^ s.cfg.payloadBits)) }

/-- R93: DECODE after ENCODE, for fields that fit and for fields that do not. -/
def Obligations.EncodeThenDecodeGivesTheMessage : Prop :=
  ∀ s : State,
    (∃ w, exec .encodeSync s = .next { s with ret := .word w } ∧
      exec (.decode w) s = .next { s with ret := .message .sync }) ∧
    ∀ n p : Nat, ∃ w, exec (.encodeData n p) s = .next { s with ret := .word w } ∧
      exec (.decode w) s =
        .next { s with ret := .message (.data (n &&& 7) (p &&& s.cfg.payloadMask)) } ∧
      (n < 8 → p ≤ s.cfg.payloadMask →
        exec (.decode w) s = .next { s with ret := .message (.data n p) })

/-- R94: ENCODE after DECODE clears bit 0 of a non-canonical word and changes no other; ENCODE is
injective on Messages that fit; DECODE is not injective, but tells 0 from 1. -/
def Obligations.DecodeThenEncodeClearsBitZero : Prop :=
  ∀ c : Config,
    (∀ w, isWord c.toRawConfig w = true →
      encodeMessage c.toRawConfig (decodeMessage c.toRawConfig w) =
        if w = 1 ∨ w % 2 = 0 then w else w - 1) ∧
    (∀ m m' : Message, m.fits c.toRawConfig = true → m'.fits c.toRawConfig = true →
      encodeMessage c.toRawConfig m = encodeMessage c.toRawConfig m' → m = m') ∧
    (∀ w, w % 2 = 0 → w ≠ 0 →
      decodeMessage c.toRawConfig (w + 1) = decodeMessage c.toRawConfig w) ∧
    decodeMessage c.toRawConfig 0 ≠ decodeMessage c.toRawConfig 1

/-- R75: every WORD falls into exactly the class the table gives, and running the class is DECODE of
the word, which is what the model takes a class of words to mean (log 11). -/
def Obligations.WireWordClassesAreComplete : Prop :=
  ∀ (s : State) (w : Word), isWord s.cfg.toRawConfig w = true →
    ∃ i, decodeAt s.cfg.toRawConfig .wire w = .ok i ∧
      (w = 1 → i = .sync) ∧
      (w % 2 = 0 → i = .data (w / 2 % 8) (w / 16)) ∧
      (w % 2 = 1 → w ≠ 1 → i = .dataNc (w / 2 % 8) (w / 16)) ∧
      exec i s = exec (.decode w) s

/-- The three classes of wire words run in every state, with any operands: the decoded Message (R75,
R76) goes to the invoker and nothing else changes. That executing a class of words is DECODE of the
word is the model's choice (log 11): no rule gives it an effect. -/
def Obligations.WireWordsAnswerTheirMessage : Prop :=
  ∀ (s : State) (n p : Nat),
    exec .sync s = .next { s with ret := .message .sync } ∧
    exec (.data n p) s = .next { s with ret := .message (.data n p) } ∧
    exec (.dataNc n p) s = .next { s with ret := .message (.data n p) }

/-! ### Result codes and halt causes -/

/-- R16, R190: raising a recoverable error keeps an earlier one and touches nothing else. That the
code of an error, executed, raises it is the model's choice (log 11). -/
def Obligations.RaisingARecoverableErrorKeepsTheFirst : Prop :=
  ∀ (s : State), s.halt = .none →
    ∀ p ∈ [(Instr.syncMessageFromUserCode, ResultCode.syncMessageFromUserCode),
        (.invalidNeighbor, .invalidNeighbor), (.frequencyControllerError, .frequencyControllerError)],
      ∃ t, exec p.1 s = .next t ∧
        (s.result = .ok → t.result = p.2) ∧ (s.result ≠ .ok → t.result = s.result) ∧
        t.ret = .result p.2 ∧ t = { s with result := t.result, ret := t.ret }

/-- R196: what a fatal error sets, and that it leaves all else as it was; the snapshot is that of the
last tick boundary with S4 and S8 written. That the code of a fatal error, executed, raises it is the
model's choice (log 11), and so is the field that holds the last boundary's snapshot (log 30). -/
def Obligations.AFatalErrorHaltsTheBlock : Prop :=
  ∀ (s : State), s.halt = .none →
    ∀ p ∈ [(Instr.tideFifoFull, HaltCause.tideFifoFull, ResultCode.tideFifoFull),
        (.tickOverrun, .tickOverrun, .tickOverrun)],
      exec p.1 s = .next { s with
        result := p.2.2, halt := p.2.1, lastError := p.2.2,
        snap := { s.boundary with lastError := p.2.2, halt := p.2.1 },
        boundary := { s.boundary with lastError := p.2.2, halt := p.2.1 },
        seq := .idle, ret := .result p.2.2 }

/-- R78, R79: the numbers of the results and what a reader makes of every number. That executing `Ok`,
`DecodeError` or a reserved code hands a reader's reading to the invoker and changes nothing is the
model's choice (log 11). -/
def Obligations.AReaderTurnsEveryCodeIntoAName : Prop :=
  (∀ r : ResultCode, ResultCode.ofCode r.code = r) ∧
  (∀ v : BitVec 8, 7 ≤ v.toNat → ResultCode.ofCode v = .decodeError) ∧
  ∀ s : State,
    exec .ok s = .next { s with ret := .result .ok } ∧
    exec .decodeError s = .next { s with ret := .result .decodeError } ∧
    ∀ code, 7 ≤ code → code < 256 →
      exec (.resultReserved code) s = .next { s with ret := .result .decodeError }

/-- R80: the numbers of the halt causes; each number read back is its cause, and 3 is none. That
executing the row of a cause returns the cause and changes nothing is the model's choice (log 11). -/
def Obligations.HaltCausesReadBack : Prop :=
  ∀ (s : State) (c : RawConfig),
    ∀ p ∈ [(0, Instr.haltNone, HaltCause.none), (1, .haltTideFifoFull, .tideFifoFull),
        (2, .haltTickOverrun, .tickOverrun)],
      p.2.2.code.toNat = p.1 ∧ decodeAt c .haltCause p.1 = .ok p.2.1 ∧
      exec p.2.1 s = .next { s with ret := .haltCause p.2.2 } ∧
      decodeAt c .haltCause 3 = .error .notAHaltCause

/-! ### The Elastic Buffer -/

/-- R101, R104: what EB_NEW and EB_LEVEL return. That EB_NEW, invoked by itself, writes no buffer of the
block is the model's inference (log 14). -/
def Obligations.NewBufferIsHalfFullAndLevelCounts : Prop :=
  ∀ (s : State),
    (∃ q, exec .ebNew s = .next { s with ret := .buffer q } ∧ q.length = s.cfg.b / 2 ∧
      ∀ m ∈ q, m = .sync) ∧
    ∀ i, exec (.ebLevel i) s = .next { s with ret := .level (s.ebAt i).length }

/-- R102: EB_PUSH appends at the back, or raises the fatal error on a full buffer and stores nothing.
That it raises it also when invoked outside T4 is the model's inference (log 23); the snapshot is that
of the last tick boundary (R196, log 30). -/
def Obligations.PushAppendsOrHalts : Prop :=
  ∀ (s : State) (i : Nat) (m : Message), s.halt = .none → s.ShapeOk → i < s.cfg.degree →
    ((s.ebAt i).length < s.cfg.b →
      ∃ t, exec (.ebPush i m) s = .next t ∧ t.ebAt i = s.ebAt i ++ [m] ∧
        (∀ j, j ≠ i → t.ebAt j = s.ebAt j) ∧ t = { s with eb := t.eb, ret := .none }) ∧
    ((s.ebAt i).length = s.cfg.b →
      exec (.ebPush i m) s = .next { s with
        result := .tideFifoFull, halt := .tideFifoFull, lastError := .tideFifoFull,
        snap := { s.boundary with lastError := .tideFifoFull, halt := .tideFifoFull },
        boundary := { s.boundary with lastError := .tideFifoFull, halt := .tideFifoFull },
        seq := .idle, ret := .result .tideFifoFull })

/-- R103: EB_POP takes the front, or returns `None` from an empty buffer and leaves it. -/
def Obligations.PopTakesTheFrontOrNone : Prop :=
  ∀ (s : State) (i : Nat), s.halt = .none → s.ShapeOk → i < s.cfg.degree →
    (s.ebAt i = [] → exec (.ebPop i) s = .next { s with ret := .popped none }) ∧
    (∀ m q, s.ebAt i = m :: q →
      ∃ t, exec (.ebPop i) s = .next t ∧ t.ebAt i = q ∧ t.ret = .popped (some m) ∧
        (∀ j, j ≠ i → t.ebAt j = s.ebAt j) ∧ t = { s with eb := t.eb, ret := t.ret })

/-- R106: Messages leave in the order they entered. With pushes of `ms` and then as many pops as the
buffer held before, each one run as an event of `step`, `ms` alone is left, in order. -/
def Obligations.BuffersAreFirstInFirstOut : Prop :=
  ∀ (s : State) (i : Nat) (ms : List Message), s.halt = .none → s.ShapeOk → i < s.cfg.degree →
    (∀ m ∈ ms, m.fits s.cfg.toRawConfig = true) → (s.ebAt i).length + ms.length ≤ s.cfg.b →
    ∃ t, Sys2Proof.core.run (ms.length + (s.ebAt i).length)
        { s with schedule := ms.map (fun m => Event.op (.ebPush i m)) ++
            List.replicate (s.ebAt i).length (Event.op (.ebPop i)) } = .next t ∧
      t.ebAt i = ms ∧ (∀ j, j ≠ i → t.ebAt j = s.ebAt j) ∧
      t = { s with eb := t.eb, ret := t.ret, schedule := [] }

/-! ### The Link Transport -/

/-- R111: LT_WRITE hands the words over and changes nothing else. -/
def Obligations.LinkWriteHandsOverTheWords : Prop :=
  ∀ (s : State) (ws : List Word), s.halt = .none →
    exec (.ltWrite ws) s = .next { s with outs := { s.outs with tx := some ws }, ret := .none }

/-- R112, R113: LT_READ takes at most K words of each link in arrival order and leaves the rest; the
liveness counters follow the bursts. That LT_READ invoked by itself updates them is the model's
inference from "part of the same step" (log 13). -/
def Obligations.LinkReadTakesAtMostKWords : Prop :=
  ∀ (s : State), s.halt = .none →
    ∃ t rx, exec .ltRead s = .next t ∧ t.ret = .bursts rx ∧ rx.length = s.cfg.degree ∧
      (∀ i < s.cfg.degree,
        (rx.getD i []).length ≤ s.cfg.k ∧
        rx.getD i [] ++ t.ports.rx.getD i [] = s.ports.rx.getD i [] ∧
        (t.ports.rx.getD i [] ≠ [] → (rx.getD i []).length = s.cfg.k) ∧
        (rx.getD i [] = [] → t.liveAt i = min (s.liveAt i + 1) s.cfg.liveMax) ∧
        (rx.getD i [] ≠ [] → t.liveAt i = 0)) ∧
      t = { s with live := t.live, ports := { s.ports with rx := t.ports.rx }, ret := t.ret }

/-- R114: LT_ACTIVE. -/
def Obligations.ActiveMeansBelowTheThreshold : Prop :=
  ∀ (s : State),
    ∃ fs, exec .ltActive s = .next { s with ret := .flags fs } ∧ fs.length = s.cfg.degree ∧
      ∀ i < s.cfg.degree, fs[i]? = some (decide (s.liveAt i < s.cfg.liveThreshold))

/-! ### The steps of the tick -/

/-- R122 to R125: T1 takes the producer's word in every case, and rejects or stages it. -/
def Obligations.FirstStepIngestsTheProducerWord : Prop :=
  ∀ (s : State), s.halt = .none → s.ShapeOk →
    (s.ports.user = none → exec .tickT1 s = .next { s with seq := .t2, ret := .none }) ∧
    ∀ w, s.ports.user = some w →
      (w = 1 → exec .tickT1 s = .next { s with
        ports := { s.ports with user := none },
        result := if s.result = .ok then .syncMessageFromUserCode else s.result,
        seq := .t2, ret := .none }) ∧
      (w ≠ 1 → s.cfg.degree ≤ w / 2 % 8 → exec .tickT1 s = .next { s with
        ports := { s.ports with user := none },
        result := if s.result = .ok then .invalidNeighbor else s.result,
        seq := .t2, ret := .none }) ∧
      (w ≠ 1 → w / 2 % 8 < s.cfg.degree → ∃ t, exec .tickT1 s = .next t ∧
        t.outAt (w / 2 % 8) = .data (w / 2 % 8) (w / 16 % 2 ^ s.cfg.payloadBits) ∧
        (∀ j, j ≠ w / 2 % 8 → t.outAt j = s.outAt j) ∧
        t = { s with
          ports := { s.ports with user := none }, out := t.out, seq := .t2, ret := .none })

/-- What T1 does with a word of each class (R77) is what running the word's producer class does, the
model's own meaning of such a row outside T1 (log 12). -/
def Obligations.FirstStepRunsTheProducerClass : Prop :=
  ∀ (s : State) (w : Word) (i : Instr), s.halt = .none → s.ports.user = some w →
    decodeAt s.cfg.toRawConfig .producer w = .ok i →
    ∃ t, exec i { s with ports := { s.ports with user := none } } = .next t ∧
      exec .tickT1 s = .next { t with seq := .t2, ret := .none }

/-- R123, R124, R125: the three producer classes. Running them outside T1 is the model's own
(log 12). -/
def Obligations.ProducerClassesRejectOrStage : Prop :=
  ∀ (s : State) (n p : Nat) (tag : Bool), s.halt = .none → s.ShapeOk →
    exec .userSync s = .next { s with
      result := if s.result = .ok then .syncMessageFromUserCode else s.result, ret := .none } ∧
    exec (.userBadnbr n p tag) s = .next { s with
      result := if s.result = .ok then .invalidNeighbor else s.result, ret := .none } ∧
    (n < s.cfg.degree → ∃ t, exec (.userData n p tag) s = .next t ∧ t.outAt n = .data n p ∧
      (∀ j, j ≠ n → t.outAt j = s.outAt j) ∧ t = { s with out := t.out, ret := .none })

/-- R127: T2 gives every link the encoded Message of its outbound slot, unconditionally. -/
def Obligations.SecondStepSendsOneWordPerLink : Prop :=
  ∀ (s : State), s.halt = .none →
    ∃ ws, exec .tickT2 s = .next { s with
        outs := { s.outs with tx := some ws }, seq := .t3, ret := .none } ∧
      ws.length = s.cfg.degree ∧
      ∀ i < s.cfg.degree, ws[i]? = some (encodeMessage s.cfg.toRawConfig (s.outAt i)) ∧
        isWord s.cfg.toRawConfig (encodeMessage s.cfg.toRawConfig (s.outAt i)) = true

/-- R128 to R131: T3 reads, decodes, retags, counts and tracks liveness on every link, enabled or
not. -/
def Obligations.ThirdStepDecodesRetagsAndCounts : Prop :=
  ∀ (s : State), s.halt = .none →
    ∃ t, exec .tickT3 s = .next t ∧
      (∀ i < s.cfg.degree, ∃ ws rest, s.ports.rx.getD i [] = ws ++ rest ∧ ws.length ≤ s.cfg.k ∧
        (rest ≠ [] → ws.length = s.cfg.k) ∧ t.ports.rx.getD i [] = rest ∧
        (t.rxmAt i).length = ws.length ∧
        (∀ j (hj : j < ws.length), (t.rxmAt i)[j]? = some
          (if ws[j] = 1 then .sync else .data i (ws[j] / 16 % 2 ^ s.cfg.payloadBits))) ∧
        t.syncCntAt i = (s.syncCntAt i + ws.countP (· == 1)) % 2 ^ s.cfg.cntBits ∧
        t.dataCntAt i = (s.dataCntAt i + ws.countP (· != 1)) % 2 ^ s.cfg.cntBits ∧
        (ws = [] → t.liveAt i = min (s.liveAt i + 1) s.cfg.liveMax) ∧
        (ws ≠ [] → t.liveAt i = 0)) ∧
      t = { s with
        ports := { s.ports with rx := t.ports.rx }, rxm := t.rxm, syncCnt := t.syncCnt,
        dataCnt := t.dataCnt, live := t.live, seq := .t4, ret := .none }

/-- R132: with room for every burst, T4 appends each enabled link's Messages in arrival order and
drops those of a disabled link. -/
def Obligations.FourthStepFillsTheEnabledLinks : Prop :=
  ∀ (s : State), s.halt = .none → s.ShapeOk →
    (∀ i < s.cfg.degree, s.enabled i = true → s.level i + (s.rxmAt i).length ≤ s.cfg.b) →
    ∃ t, exec .tickT4 s = .next t ∧
      (∀ i < s.cfg.degree, s.enabled i = true → t.ebAt i = s.ebAt i ++ s.rxmAt i) ∧
      (∀ i, s.enabled i = false → t.ebAt i = s.ebAt i) ∧
      t = { s with eb := t.eb, seq := .t5, ret := .none }

/-- R133: the first link that has no room, in push order, ends the tick: lower links are filled, it
is filled to B, higher links are untouched, and the block halts, with the snapshot of the last tick
boundary (R196). -/
def Obligations.FourthStepHaltsAtTheFirstOverflow : Prop :=
  ∀ (s : State) (k : Nat), s.halt = .none → s.ShapeOk → s.LevelsOk → k < s.cfg.degree →
    s.enabled k = true → s.cfg.b < s.level k + (s.rxmAt k).length →
    (∀ i < k, s.enabled i = true → s.level i + (s.rxmAt i).length ≤ s.cfg.b) →
    ∃ t, exec .tickT4 s = .next t ∧
      (∀ i < k, s.enabled i = true → t.ebAt i = s.ebAt i ++ s.rxmAt i) ∧
      t.ebAt k = s.ebAt k ++ (s.rxmAt k).take (s.cfg.b - s.level k) ∧ t.level k = s.cfg.b ∧
      (∀ i, (s.enabled i = false ∨ k < i) → t.ebAt i = s.ebAt i) ∧
      t = { s with
        eb := t.eb, result := .tideFifoFull, halt := .tideFifoFull, lastError := .tideFifoFull,
        snap := { s.boundary with lastError := .tideFifoFull, halt := .tideFifoFull },
        boundary := { s.boundary with lastError := .tideFifoFull, halt := .tideFifoFull },
        seq := .idle, ret := .result .tideFifoFull }

/-- R134 to R137: T5 pops each enabled link once; `Sync` is discarded, `Data` forwarded in link order,
an empty buffer warned of and counted; a disabled link is not touched. -/
def Obligations.FifthStepDrainsOneMessagePerLink : Prop :=
  ∀ (s : State), s.halt = .none → s.Inv →
    ∃ t, exec .tickT5 s = .next t ∧
      (∀ i < s.cfg.degree,
        (s.enabled i = false → t.ebAt i = s.ebAt i ∧ t.emptyCntAt i = s.emptyCntAt i ∧
          t.outs.warn[i]? = some false) ∧
        (s.enabled i = true → s.ebAt i = [] → t.ebAt i = [] ∧
          t.emptyCntAt i = (s.emptyCntAt i + 1) % 2 ^ s.cfg.cntBits ∧
          t.outs.warn[i]? = some true) ∧
        (∀ m q, s.enabled i = true → s.ebAt i = m :: q → t.ebAt i = q ∧
          t.emptyCntAt i = s.emptyCntAt i ∧ t.outs.warn[i]? = some false)) ∧
      t.outs.fwd = s.outs.fwd ++ (List.range s.cfg.degree).filterMap (fun i =>
        match s.enabled i, s.ebAt i with
        | true, .data n p :: _ => some (encodeMessage s.cfg.toRawConfig (.data n p))
        | _, _ => none) ∧
      t = { s with
        eb := t.eb, emptyCnt := t.emptyCnt,
        outs := { s.outs with fwd := t.outs.fwd, warn := t.outs.warn }, seq := .t6, ret := .none }

/-- R138: T6 copies levels and counters of all links into the snapshot. -/
def Obligations.SixthStepRecordsLevelsAndCounters : Prop :=
  ∀ (s : State), s.halt = .none → s.ShapeOk →
    exec .tickT6 s = .next { s with
      snap := { s.snap with
        level := s.eb.map List.length, syncCnt := s.syncCnt, dataCnt := s.dataCnt,
        emptyCnt := s.emptyCnt },
      seq := .t7, ret := .none }

/-- R139, R140, R141: T7 counts the live links, runs the Frequency Controller on all levels, surfaces
its failure, copies its fields into the snapshot and completes the tick. The snapshot is from then on
that of the last tick boundary, which the model holds in a field of its own (log 30). -/
def Obligations.SeventhStepCorrectsAndCompletes : Prop :=
  ∀ (s : State), s.halt = .none → s.Inv →
    ∃ t u, exec (.fcRun (s.eb.map List.length)) { s with fcDegree := t.fcDegree } = .next u ∧
      exec .tickT7 s = .next t ∧
      t.fcDegree = ((List.range s.cfg.degree).filter fun i =>
        s.enabled i && decide (s.liveAt i < s.cfg.liveThreshold)).length ∧
      (u.ret = .fc true → t.result = s.result) ∧
      (u.ret = .fc false →
        t.result = if s.result = .ok then .frequencyControllerError else s.result) ∧
      (t.result = .ok → t.lastError = s.lastError) ∧ (t.result ≠ .ok → t.lastError = t.result) ∧
      t.snap = { s.snap with
        lastCorr := u.lastCorr, divState := u.divState, degree := t.fcDegree,
        lastError := t.lastError } ∧
      t = { s with
        fcDegree := t.fcDegree, prevErr := u.prevErr, integ := u.integ, divState := u.divState,
        lastCorr := u.lastCorr, outs := u.outs, result := t.result, lastError := t.lastError,
        snap := t.snap, boundary := t.snap, seq := .idle, ret := .result t.result }

/-! ### PID and Frequency Controller -/

/-- R151 to R156: PID_RUN, its three outcomes. -/
def Obligations.PidRunFollowsItsFormula : Prop :=
  ∀ (s : State) (sp mv : Fx), s.halt = .none →
    let c := s.cfg.toRawConfig
    let run (e : Fx) : Host.Outcome State Fault Refusal := .next { s with
      integ := satAdd c s.integ e, prevErr := e,
      ret := .correction (some (satAdd c
        (satAdd c (satMul c c.kp e) (satMul c c.ki (satAdd c s.integ e)))
        (satMul c c.kd (satSub c e s.prevErr)))) }
    (c.fxMin ≤ sp - mv → sp - mv ≤ c.fxMax → exec (.pidRun sp mv) s = run (sp - mv)) ∧
    (c.pidVariant = .permissive →
      (sp - mv < c.fxMin → exec (.pidRun sp mv) s = run c.fxMin) ∧
      (c.fxMax < sp - mv → exec (.pidRun sp mv) s = run c.fxMax)) ∧
    (c.pidVariant = .strict → sp - mv < c.fxMin ∨ c.fxMax < sp - mv →
      exec (.pidRun sp mv) s = .next { s with ret := .correction none })

/-- R17: the saturating primitives are exact where the exact result is an FX value, and stop at the
limit otherwise; the product is floored. -/
def Obligations.FixedPointArithmeticSaturates : Prop :=
  ∀ (c : Config) (a b : Fx),
    (∀ z ∈ [(satAdd c.toRawConfig a b, a + b), (satSub c.toRawConfig a b, a - b),
        (satMul c.toRawConfig a b, (a * b).fdiv (2 ^ c.fxFrac))],
      c.isFx z.1 ∧ (c.isFx z.2 → z.1 = z.2) ∧ (z.2 < c.fxMin → z.1 = c.fxMin) ∧
      (c.fxMax < z.2 → z.1 = c.fxMax))

/-- R158: with error 0 the integral stays, and from the second such call on the output is
`sat_mul(KI, INTEG)`, which is 0 exactly when `0 <= KI * INTEG < 2^FX_FRAC`. -/
def Obligations.ZeroErrorLeavesTheIntegral : Prop :=
  ∀ (s : State) (x : Fx), s.halt = .none → s.Inv →
    ∃ t u, exec (.pidRun x x) s = .next t ∧ t.integ = s.integ ∧ t.prevErr = 0 ∧
      exec (.pidRun x x) t = .next u ∧ u.integ = s.integ ∧ u.prevErr = 0 ∧
      u.ret = .correction (some (satMul s.cfg.toRawConfig s.cfg.ki s.integ)) ∧
      (satMul s.cfg.toRawConfig s.cfg.ki s.integ = 0 ↔
        0 ≤ s.cfg.ki * s.integ ∧ s.cfg.ki * s.integ < 2 ^ s.cfg.fxFrac)

/-- R11: on every call the Frequency Controller makes, PID_RUN finds its error in range, so the two
variants agree. -/
def Obligations.PidVariantsAgreeForTheFrequencyController : Prop :=
  ∀ (c : Config) (degree : Nat) (levels : List Nat), degree ≤ c.degree →
    levels.length = c.degree → (∀ l ∈ levels, l ≤ c.b) →
    ∀ v : PidVariant,
      pidError { c.toRawConfig with pidVariant := v } (fcSetpoint c.toRawConfig degree)
          (fxOfInt c.toRawConfig (fcActual levels)) =
        some (((degree * c.b / 2 : Nat) - (levels.sum : Nat) : Int) * 2 ^ c.fxFrac)

/-- R166: FC_SET_DEGREE stores without checking and changes nothing else. That a number above DEGREE, which
is outside its operand's range, is stored too is read from "the value is not validated" (log 31). -/
def Obligations.SetDegreeStoresTheCount : Prop :=
  ∀ (s : State) (d : Nat), s.halt = .none →
    exec (.fcSetDegree d) s = .next { s with fcDegree := d, ret := .none }

/-- R167 to R174, R176: FC_RUN on levels and a degree in their range, by the actuator's answer, which the
model holds at the ports (R165, log 24). -/
def Obligations.FrequencyControllerRunMovesTheDivider : Prop :=
  ∀ (s : State) (levels : List Nat), s.halt = .none → s.ControlOk → s.DegreeOk →
    levels.length = s.cfg.degree → (∀ l ∈ levels, l ≤ s.cfg.b) →
    let c := s.cfg.toRawConfig
    let e : Fx := ((s.fcDegree * c.b / 2 : Nat) - (levels.sum : Nat) : Int) * 2 ^ c.fxFrac
    let integ := satAdd c s.integ e
    let corr := satAdd c (satAdd c (satMul c c.kp e) (satMul c c.ki integ))
      (satMul c c.kd (satSub c e s.prevErr))
    ∃ cand reg : Int,
      (c.actSign = .plus → cand = min (max (satAdd c s.divState corr) (c.divMin * 2 ^ c.fxFrac))
        (c.divMax * 2 ^ c.fxFrac)) ∧
      (c.actSign = .minus → cand = min (max (satSub c s.divState corr) (c.divMin * 2 ^ c.fxFrac))
        (c.divMax * 2 ^ c.fxFrac)) ∧
      (reg * 2 ^ c.fxFrac ≤ cand ∧ cand < (reg + 1) * 2 ^ c.fxFrac) ∧
      ((c.divMin : Int) ≤ reg ∧ reg ≤ c.divMax) ∧
      (s.ports.act = .busy → exec (.fcRun levels) s = .next { s with
        integ := integ, prevErr := e, lastCorr := corr, divState := cand,
        outs := { s.outs with actw := none }, ret := .fc true }) ∧
      (s.ports.act = .ready → exec (.fcRun levels) s = .next { s with
        integ := integ, prevErr := e, lastCorr := corr, divState := cand,
        outs := { s.outs with actw := some reg }, ret := .fc true }) ∧
      (s.ports.act = .reject → exec (.fcRun levels) s = .next { s with
        integ := integ, prevErr := e, lastCorr := corr,
        outs := { s.outs with actw := some reg }, ret := .fc false })

/-- R179: FC_DEBUG returns the three registers and changes nothing. -/
def Obligations.FrequencyControllerDebugReads : Prop :=
  ∀ (s : State),
    exec .fcDebug s = .next { s with ret := .debug s.lastCorr s.divState s.fcDegree }

/-! ### The whole tick -/

/-- R121, R197: a trigger finds a halted block: no port is read or written, no register changes, the
answer is `Err(HALT)`. -/
def Obligations.AHaltedTickDoesNothing : Prop :=
  ∀ (s : State), s.halt ≠ .none →
    ∃ t, exec .tick s = .next t ∧ s.sameBlock t ∧ t.ports = s.ports ∧ t.schedule = s.schedule ∧
      t.outs.tx = none ∧ t.outs.fwd = [] ∧ t.outs.actw = none ∧
      t.outs.warn = List.replicate s.cfg.degree false ∧
      (s.halt = .tideFifoFull → t.ret = .result .tideFifoFull) ∧
      (s.halt = .tickOverrun → t.ret = .result .tickOverrun)

/-- R198: a trigger during a tick is the fatal re-entry; the tick in progress is abandoned and its
outputs so far stand. A TICK invoked and the event of a trigger are the model's two forms of it (log 6);
the snapshot is that of the last tick boundary with S4 and S8 written (R196), held in a field of the
model's own (log 30), so that nothing the abandoned tick wrote to it is seen. -/
def Obligations.ATriggerDuringATickHaltsTheBlock : Prop :=
  ∀ (s : State), s.halt = .none → s.seq ≠ .idle →
    ∀ t, t = { s with
        result := .tickOverrun, halt := .tickOverrun, lastError := .tickOverrun,
        snap := { s.boundary with lastError := .tickOverrun, halt := .tickOverrun },
        boundary := { s.boundary with lastError := .tickOverrun, halt := .tickOverrun },
        seq := .idle, ret := .result .tickOverrun } →
      exec .tick s = .next t ∧
      ∀ es, step { s with schedule := .trigger :: es } = .next { t with schedule := es }

/-- R143: the level of every link over one tick, and when the tick halts. -/
def Obligations.ATickMovesEachLevelByItsBurstLessOne : Prop :=
  ∀ (s : State), s.Inv → s.halt = .none → s.seq = .idle →
    ∃ t, exec .tick s = .next t ∧ t.seq = .idle ∧ (t.halt = .tideFifoFull ↔ s.Overflows) ∧
      (¬ s.Overflows → t.halt = .none ∧
        ∀ i < s.cfg.degree, s.enabled i = true →
          (1 ≤ s.level i + (s.burst i).length →
            t.level i = s.level i + (s.burst i).length - 1) ∧
          (s.level i + (s.burst i).length = 0 → t.level i = 0)) ∧
      (∀ i < s.cfg.degree, s.enabled i = false → t.ebAt i = s.ebAt i)

/-- R190, R126, R133, R141: the one result of a tick, by what happened in it, the outputs of a tick that
ends in T4, and the last-error register. -/
def Obligations.ATickReturnsTheErrorOfHighestPriority : Prop :=
  ∀ (s : State), s.Inv → s.halt = .none → s.seq = .idle →
    ∃ t r, exec .tick s = .next t ∧ t.ret = .result r ∧ t.ports.user = none ∧
      (s.Overflows → r = .tideFifoFull ∧ t.outs.fwd = [] ∧ t.outs.actw = none ∧
        t.outs.warn = List.replicate s.cfg.degree false) ∧
      (¬ s.Overflows →
        (s.ports.user = some 1 → r = .syncMessageFromUserCode) ∧
        (∀ w, s.ports.user = some w → w ≠ 1 → s.cfg.degree ≤ w / 2 % 8 → r = .invalidNeighbor) ∧
        ((s.ports.user = none ∨
            ∃ w, s.ports.user = some w ∧ w ≠ 1 ∧ w / 2 % 8 < s.cfg.degree) →
          (s.ports.act = .reject → r = .frequencyControllerError) ∧
          (s.ports.act ≠ .reject → r = .ok))) ∧
      (r = .ok → t.lastError = s.lastError) ∧ (r ≠ .ok → t.lastError = r) ∧
      t.snap.lastError = t.lastError

/-- R125, R126, R127: every tick that starts sends exactly one word per link, whatever fails in it:
the producer's word with bit 0 cleared on the link it names, Sync on every other. -/
def Obligations.ATickSendsOneWordOnEveryLink : Prop :=
  ∀ (s : State), s.halt = .none → s.seq = .idle →
    (∀ w, s.ports.user = some w → isWord s.cfg.toRawConfig w = true) →
    ∃ t ws, exec .tick s = .next t ∧ t.outs.tx = some ws ∧ ws.length = s.cfg.degree ∧
      ∀ i < s.cfg.degree,
        (∀ w, s.ports.user = some w → w ≠ 1 → w / 2 % 8 = i → ws[i]? = some (w - w % 2)) ∧
        ((∀ w, s.ports.user = some w → w = 1 ∨ w / 2 % 8 ≠ i) → ws[i]? = some 1)

/-- R142, R144: fill comes before drain, so a Message that finds its buffer empty is forwarded in the
tick it arrives, tagged with its link. -/
def Obligations.AMessageThatFindsAnEmptyBufferIsForwardedAtOnce : Prop :=
  ∀ (s : State) (i : Nat) (w : Word) (ws : List Word), s.Inv → s.halt = .none → s.seq = .idle →
    ¬ s.Overflows → i < s.cfg.degree → s.enabled i = true → s.ebAt i = [] →
    s.burst i = w :: ws → w ≠ 1 →
    ∃ t, exec .tick s = .next t ∧ t.outs.warn[i]? = some false ∧
      (2 * i + 16 * (w / 16 % 2 ^ s.cfg.payloadBits)) ∈ t.outs.fwd

/-- R145: ticks from reset with no word from the producer or a neighbor. Every enabled level falls by
one a tick to 0 and stays there, with a warning from the first empty pop on; every link goes inactive
when its counter reaches the threshold; every tick sends Sync on every link and returns `Ok`, whether
the actuator is ready or busy (one that rejects makes the result an error, R174). -/
def Obligations.WithoutTrafficLinksEmptyAndGoInactive : Prop :=
  ∀ (c : Config) (k : Nat) (act : ActStatus), 1 ≤ k → act ≠ .reject →
    ∃ t, Sys2Proof.core.run k
        { State.resetIn c with
          ports := ⟨none, List.replicate c.degree [], act⟩
          schedule := List.replicate k (Event.op .tick) } = .next t ∧
      t.ret = .result .ok ∧ t.halt = .none ∧ t.outs.tx = some (List.replicate c.degree 1) ∧
      t.outs.fwd = [] ∧
      (∀ i < c.degree, t.liveAt i = min k c.liveThreshold ∧
        (t.enabled i = true → t.level i = c.b / 2 - k ∧
          t.outs.warn[i]? = some (decide (c.b / 2 < k))) ∧
        (t.enabled i = false → t.level i = c.b / 2 ∧ t.outs.warn[i]? = some false)) ∧
      (c.liveThreshold ≤ k → t.fcDegree = 0)

/-- The stepwise sequencer and the tick as one operation are the same machine: a trigger and the seven
steps that follow it give the very state TICK gives (R22, R120, D2). That the model has the tick in both
forms is its own choice (log 6). -/
def Obligations.TriggerAndSevenStepsEqualTheTick : Prop :=
  ∀ (s : State), s.schedule = [] →
    Sys2Proof.core.run 8 { s with schedule := [.trigger] } = exec .tick s

/-! ### The machine -/

/-- A step runs the decoded instruction: the bits at the head of the schedule, decoded at their
place, are executed on the state that has moved past them; an operation likewise. The schedule of
events, the place of a pattern and the running of a pattern by itself are the model's choice (log 5,
log 10, log 11): R84 gives the operations no bits, and R22 speaks of `STEP` alone. -/
def Obligations.AStepRunsTheDecodedInstruction : Prop :=
  ∀ (s : State) (i : Instr) (es : List Event), i.wellFormed s.cfg.toRawConfig = true →
    s.stepDue i = true →
    (s.schedule = .op i :: es → step s = exec i { s with schedule := es }) ∧
    ∀ p w, s.schedule = .code p w :: es → decodeAt s.cfg.toRawConfig p w = .ok i →
      step s = exec i { s with schedule := es }

/-- With no event to come, or with the event that none comes, the tick engine runs the step that `STEP`
names, and waits at `IDLE`. R22 gives the order of the steps and R206 the idle block; that a model step
takes its event from a list and, with none, does one step of the tick is the model's choice (log 5),
and so is the tick in single steps (log 6). -/
def Obligations.TheEngineRunsTheStepThatSTEPNames : Prop :=
  ∀ (s : State), (s.schedule = [] → s.seq = .idle → step s = .next s) ∧
    ∀ p ∈ [(Seq.t1, Instr.tickT1), (.t2, .tickT2), (.t3, .tickT3), (.t4, .tickT4), (.t5, .tickT5),
        (.t6, .tickT6), (.t7, .tickT7)],
      s.seq = p.1 → (s.schedule = [] → step s = exec p.2 s) ∧
        ∀ es, s.schedule = .wait :: es → step s = exec p.2 { s with schedule := es }

/-- R22: `STEP` moves only to the next step in the fixed order, or to `IDLE` with a halt or a reset.
That a reset may come during a tick is the model's choice (log 29). -/
def Obligations.StepsFollowTheFixedOrder : Prop :=
  ∀ (s t : State), s.Inv → step s = .next t →
    t.seq = s.seq ∨
    (s.seq, t.seq) ∈ [(Seq.idle, Seq.t1), (.t1, .t2), (.t2, .t3), (.t3, .t4), (.t4, .t5), (.t5, .t6),
      (.t6, .t7), (.t7, .idle)] ∨
    (t.seq = .idle ∧ (t.halt ≠ .none ∨ ∃ es, s.schedule = .op .reset :: es))

/-- R29, R197: a halt is sticky: whatever comes but a reset, a halted block keeps every register. That
this holds of operations invoked by themselves too is the model's inference (log 15). -/
def Obligations.OnlyResetLeavesAHalt : Prop :=
  ∀ (s t : State), s.halt ≠ .none → step s = .next t → (∀ es, s.schedule ≠ .op .reset :: es) →
    s.sameBlock t

/-- R210, R211, R42: RESET sets every register to its reset value and writes no port. OUT, RXM and
RESULT, which R42 leaves unspecified, are the model's choice (log 19) and are not stated. That it does
so at any `STEP` is the model's choice too (log 29), and so is the field of the last boundary's
snapshot (log 30). -/
def Obligations.ResetSetsEveryRegister : Prop :=
  ∀ (s : State), ∃ t, exec .reset s = .next t ∧ t.cfg = s.cfg ∧
    t.eb = List.replicate s.cfg.degree (List.replicate (s.cfg.b / 2) .sync) ∧
    (∀ l ∈ [t.live, t.syncCnt, t.dataCnt, t.emptyCnt, t.snap.syncCnt, t.snap.dataCnt,
      t.snap.emptyCnt], l = List.replicate s.cfg.degree 0) ∧
    t.prevErr = 0 ∧ t.integ = 0 ∧ t.divState = s.cfg.divInit * 2 ^ s.cfg.fxFrac ∧
    t.fcDegree = s.cfg.degree ∧ t.lastCorr = 0 ∧ t.lastError = .ok ∧ t.halt = .none ∧
    t.seq = .idle ∧ t.snap.level = List.replicate s.cfg.degree (s.cfg.b / 2) ∧
    t.snap.lastError = .ok ∧ t.snap.lastCorr = 0 ∧ t.snap.divState = t.divState ∧
    t.snap.degree = s.cfg.degree ∧ t.snap.halt = .none ∧ t.boundary = t.snap ∧
    t.outs.tx = none ∧ t.outs.fwd = [] ∧ t.outs.actw = none

/-- RESET leaves what the environment holds out at the ports and the events still to come: the model's
inference, since neither is block state (R40, log 20). -/
def Obligations.ResetLeavesTheEnvironment : Prop :=
  ∀ (s : State), ∃ t, exec .reset s = .next t ∧ t.ports = s.ports ∧ t.schedule = s.schedule

/-- R205, R63: a debug read between ticks returns the snapshot; during a tick it is not served, in the
model's form of "refuse or stall" (log 16); it never changes a register. -/
def Obligations.ADebugReadSeesTheLastTickBoundary : Prop :=
  ∀ (s : State),
    (s.seq = .idle → exec .dbgRead s = .next { s with ret := .snapshot s.snap }) ∧
    (s.seq ≠ .idle → exec .dbgRead s = .next { s with ret := .notServed })

/-- R38: nothing changes the configuration. -/
def Obligations.NothingChangesTheConfiguration : Prop :=
  ∀ (s t : State), step s = .next t → t.cfg = s.cfg

/-- The "Written only by" clauses of R22 to R24 and R26 to R37: which instructions may change each
register of the block, the snapshot, RESULT and STEP among them. Writers that no rule names come from
running by itself what the block does inside a tick, which is the model's choice or inference: the
codes of errors (log 11), the producer classes (log 12), LT_READ (log 13), EB_PUSH on a full buffer
(log 23), other operations outside their tick (log 5). `boundary` is the model's own field (log 30). -/
def Obligations.EachRegisterHasOnlyItsWriters : Prop :=
  ∀ (i : Instr) (s t : State), exec i s = .next t → i ≠ .reset → i ≠ .tick →
    (t.eb ≠ s.eb → i ∈ [Instr.tickT4, .tickT5] ∨ (∃ l m, i = .ebPush l m) ∨ ∃ l, i = .ebPop l) ∧
    (t.live ≠ s.live → i ∈ [Instr.tickT3, .ltRead]) ∧
    (t.syncCnt ≠ s.syncCnt ∨ t.dataCnt ≠ s.dataCnt ∨ t.rxm ≠ s.rxm → i = .tickT3) ∧
    (t.emptyCnt ≠ s.emptyCnt → i = .tickT5) ∧
    (t.prevErr ≠ s.prevErr ∨ t.integ ≠ s.integ →
      i = .tickT7 ∨ (∃ ls, i = .fcRun ls) ∨ ∃ a b, i = .pidRun a b) ∧
    (t.divState ≠ s.divState ∨ t.lastCorr ≠ s.lastCorr → i = .tickT7 ∨ ∃ ls, i = .fcRun ls) ∧
    (t.fcDegree ≠ s.fcDegree → i = .tickT7 ∨ ∃ d, i = .fcSetDegree d) ∧
    (t.out ≠ s.out → i = .tickT1 ∨ ∃ n p g, i = .userData n p g) ∧
    (t.halt ≠ s.halt → i ∈ [Instr.tickT4, .tideFifoFull, .tickOverrun] ∨ ∃ l m, i = .ebPush l m) ∧
    (t.lastError ≠ s.lastError →
      i ∈ [Instr.tickT4, .tickT7, .tideFifoFull, .tickOverrun] ∨ ∃ l m, i = .ebPush l m) ∧
    (t.snap ≠ s.snap →
      i ∈ [Instr.tickT4, .tickT6, .tickT7, .tideFifoFull, .tickOverrun] ∨ ∃ l m, i = .ebPush l m) ∧
    (t.boundary ≠ s.boundary →
      i ∈ [Instr.tickT4, .tickT7, .tideFifoFull, .tickOverrun] ∨ ∃ l m, i = .ebPush l m) ∧
    (t.result ≠ s.result →
      i ∈ [Instr.tickT1, .tickT4, .tickT7, .userSync, .syncMessageFromUserCode, .invalidNeighbor,
        .frequencyControllerError, .tideFifoFull, .tickOverrun] ∨
      (∃ n p g, i = .userBadnbr n p g) ∨ ∃ l m, i = .ebPush l m) ∧
    (t.seq ≠ s.seq →
      i ∈ [Instr.tickT1, .tickT2, .tickT3, .tickT4, .tickT5, .tickT6, .tickT7, .tideFifoFull,
        .tickOverrun] ∨ ∃ l m, i = .ebPush l m)

/-- R43: the buffer of a disabled link never changes, but for a reset or a buffer operation that names
the link directly, which no tick makes (log 5). -/
def Obligations.ADisabledLinkKeepsItsBuffer : Prop :=
  ∀ (s t : State) (i : Nat), i < s.cfg.degree → s.enabled i = false → step s = .next t →
    (∀ es, s.schedule ≠ .op .reset :: es) → (∀ m es, s.schedule ≠ .op (.ebPush i m) :: es) →
    (∀ es, s.schedule ≠ .op (.ebPop i) :: es) → t.ebAt i = s.ebAt i

/-- The state after reset meets the invariant, in every configuration. -/
def Obligations.ResetMeetsTheInvariant : Prop :=
  (∀ c : Config, (State.resetIn c).Inv ∧ (State.resetIn c).TagsOk ∧ (State.resetIn c).DegreeOk) ∧ State.reset.Good

/-- R43 and the ranges of 10_state.md: every step keeps the invariant, from every state that meets
it. The range of FC_DEGREE, which FC_SET_DEGREE does not check, has a statement of its own. -/
def Obligations.EveryStepKeepsTheInvariant : Prop :=
  ∀ (s t : State), s.Inv → step s = .next t → t.Inv

/-- R43, R129: every Message stored for a link carries that link's number. The one thing excepted is
a direct EB_PUSH of a Message that carries another number, which no tick makes (log 5). -/
def Obligations.EveryStepKeepsTheLinkTags : Prop :=
  ∀ (s t : State), s.TagsOk → step s = .next t →
    (∀ i m es, s.schedule = .op (.ebPush i m) :: es → m.taggedFor i = true) → t.TagsOk

/-- R34, R43: FC_DEGREE stays in [0, DEGREE]. The one thing excepted is a direct FC_SET_DEGREE of a
larger number, which "is not validated" (R166) and which no tick makes (log 31). -/
def Obligations.EveryStepKeepsTheDegreeInRange : Prop :=
  ∀ (s t : State), s.DegreeOk → step s = .next t →
    (∀ d es, s.schedule = .op (.fcSetDegree d) :: es → d ≤ s.cfg.degree) → t.DegreeOk

/-- R63, R196: a debug read after a tick that a fatal error ended, a second trigger at any of its seven
steps or an overflow in its T4, sees S0 to S3 and S5 to S7 of the last complete tick, with the error
in S4 and S8: never a mixture of two ticks. How the model holds them is log 30. -/
def Obligations.AnAbandonedTickLeavesTheLastSnapshot : Prop :=
  ∀ (s : State) (k : Nat), s.Inv → s.halt = .none → s.seq = .idle → k ≤ 6 →
    ∃ v t : State, Sys2Proof.core.run (k + 1) { s with schedule := [.trigger] } = .next v ∧
      Sys2Proof.core.run 2 { v with schedule := [.trigger, .op .dbgRead] } = .next t ∧
      (t.halt = .tideFifoFull ↔ 4 ≤ k ∧ s.Overflows) ∧
      (t.halt ≠ .tideFifoFull → t.halt = .tickOverrun) ∧
      t.ret = .snapshot { s.snap with lastError := haltResult t.halt, halt := t.halt }
end

