-- ==== Sys2Proof/Laws/Codec.lean ====
section
/-! SUPPORT. The fields of a wire word in arithmetic, and what packing and extracting do to them. -/

namespace Sys2Proof

theorem neighborField_eq (w : Word) : neighborField w = w / 2 % 8 := by
  have h : (0b111 : Nat) = 2 ^ 3 - 1 := rfl
  rw [neighborField, h, Nat.and_two_pow_sub_one_eq_mod, Nat.shiftRight_eq_div_pow]

theorem and_payloadMask (c : RawConfig) (p : Nat) : p &&& c.payloadMask = p % 2 ^ c.payloadBits := by
  rw [RawConfig.payloadMask, Nat.and_two_pow_sub_one_eq_mod]

theorem payloadField_eq (c : RawConfig) (w : Word) :
    payloadField c w = w / 16 % 2 ^ c.payloadBits := by
  rw [payloadField, and_payloadMask, Nat.shiftRight_eq_div_pow]

theorem tagField_eq (w : Word) : tagField w = decide (w % 2 = 1) := by
  simp only [tagField, Nat.and_one_is_mod]
  rfl

theorem packData_eq (c : RawConfig) (n p : Nat) :
    packData c n p = 2 * (n % 8) + 16 * (p % 2 ^ c.payloadBits) := by
  have h : (0b111 : Nat) = 2 ^ 3 - 1 := rfl
  rw [packData, and_payloadMask, h, Nat.and_two_pow_sub_one_eq_mod, Nat.or_comm,
    ← Nat.shiftLeft_add_eq_or_of_lt (by rw [Nat.shiftLeft_eq]; omega), Nat.shiftLeft_eq,
    Nat.shiftLeft_eq]
  unfold Word
  omega

theorem packTagged_eq (c : RawConfig) (n p : Nat) (t : Bool) :
    packTagged c n p t = 2 * (n % 8) + 16 * (p % 2 ^ c.payloadBits) + t.toNat := by
  have h : packData c n p = (n % 8 + 8 * (p % 2 ^ c.payloadBits)) <<< 1 := by
    rw [packData_eq, Nat.shiftLeft_eq]
    unfold Word
    omega
  cases t
  · simp [packTagged, packData_eq]
  · simp only [packTagged, if_true, Bool.toNat_true]
    rw [← packData_eq, h, ← Nat.shiftLeft_add_eq_or_of_lt (by decide)]

theorem wordBits_pow (c : RawConfig) : 2 ^ c.wordBits = 2 ^ c.payloadBits * 16 := by
  rw [RawConfig.wordBits, pow_add]
  rfl

/-- A packed word fits the word (R70). -/
theorem packTagged_lt (c : RawConfig) (n p : Nat) (t : Bool) :
    packTagged c n p t < 2 ^ c.wordBits := by
  have h1 : p % 2 ^ c.payloadBits < 2 ^ c.payloadBits := Nat.mod_lt _ (by positivity)
  have h2 : t.toNat ≤ 1 := Bool.toNat_le t
  rw [packTagged_eq, wordBits_pow]
  generalize p % 2 ^ c.payloadBits = q at *
  generalize 2 ^ c.payloadBits = m at *
  unfold Word
  omega

/-- A word is its three fields (R70). -/
theorem word_eq_fields {c : RawConfig} {w : Word} (h : w < 2 ^ c.wordBits) :
    w = 2 * (w / 2 % 8) + 16 * (w / 16 % 2 ^ c.payloadBits) + w % 2 := by
  have h1 : w / 16 < 2 ^ c.payloadBits := by
    rw [wordBits_pow] at h
    unfold Word at *
    exact Nat.div_lt_of_lt_mul (by omega)
  rw [Nat.mod_eq_of_lt h1]
  unfold Word at *
  omega

/-- The fields of a packed word are the fields packed (R73, R93). -/
theorem fields_packTagged (c : RawConfig) (n p : Nat) (t : Bool) :
    neighborField (packTagged c n p t) = n % 8 ∧
      payloadField c (packTagged c n p t) = p % 2 ^ c.payloadBits ∧
      tagField (packTagged c n p t) = t := by
  have h2 : t.toNat ≤ 1 := Bool.toNat_le t
  rw [neighborField_eq, payloadField_eq, tagField_eq, packTagged_eq]
  generalize hq : p % 2 ^ c.payloadBits = q
  have h16 : (2 * (n % 8) + 16 * q + t.toNat) / 16 = q := by omega
  refine ⟨by omega, by rw [h16, ← hq, Nat.mod_mod], ?_⟩
  have h1 : (2 * (n % 8) + 16 * q + t.toNat) % 2 = t.toNat := by omega
  rw [h1]
  cases t <;> rfl

theorem decodeMessage_eq (c : RawConfig) (w : Word) :
    decodeMessage c w = if w = 1 then .sync else .data (w / 2 % 8) (w / 16 % 2 ^ c.payloadBits) := by
  rw [decodeMessage, neighborField_eq, payloadField_eq]

/-- What DECODE gives always fits (R18, R92). -/
theorem decodeMessage_fits (c : RawConfig) (w : Word) : (decodeMessage c w).fits c = true := by
  have h : w / 16 % 2 ^ c.payloadBits < 2 ^ c.payloadBits := Nat.mod_lt _ (by positivity)
  rw [decodeMessage_eq]
  split
  · rfl
  · simp [Message.fits, h]; omega

end Sys2Proof
end

