-- ==== Sys2Proof/Laws/State.lean ====
section
/-! SUPPORT. What each named update of the state leaves in each field: one lemma per field per update. -/

namespace Sys2Proof.Machine.State

variable (s : State)

/-! `answer` hands a value to the invoker. -/

@[simp] theorem answer_cfg (r : Ret) : (s.answer r).cfg = s.cfg := rfl
@[simp] theorem answer_eb (r : Ret) : (s.answer r).eb = s.eb := rfl
@[simp] theorem answer_live (r : Ret) : (s.answer r).live = s.live := rfl
@[simp] theorem answer_syncCnt (r : Ret) : (s.answer r).syncCnt = s.syncCnt := rfl
@[simp] theorem answer_dataCnt (r : Ret) : (s.answer r).dataCnt = s.dataCnt := rfl
@[simp] theorem answer_emptyCnt (r : Ret) : (s.answer r).emptyCnt = s.emptyCnt := rfl
@[simp] theorem answer_prevErr (r : Ret) : (s.answer r).prevErr = s.prevErr := rfl
@[simp] theorem answer_integ (r : Ret) : (s.answer r).integ = s.integ := rfl
@[simp] theorem answer_divState (r : Ret) : (s.answer r).divState = s.divState := rfl
@[simp] theorem answer_fcDegree (r : Ret) : (s.answer r).fcDegree = s.fcDegree := rfl
@[simp] theorem answer_lastCorr (r : Ret) : (s.answer r).lastCorr = s.lastCorr := rfl
@[simp] theorem answer_lastError (r : Ret) : (s.answer r).lastError = s.lastError := rfl
@[simp] theorem answer_halt (r : Ret) : (s.answer r).halt = s.halt := rfl
@[simp] theorem answer_snap (r : Ret) : (s.answer r).snap = s.snap := rfl
@[simp] theorem answer_boundary (r : Ret) : (s.answer r).boundary = s.boundary := rfl
@[simp] theorem answer_seq (r : Ret) : (s.answer r).seq = s.seq := rfl
@[simp] theorem answer_out (r : Ret) : (s.answer r).out = s.out := rfl
@[simp] theorem answer_rxm (r : Ret) : (s.answer r).rxm = s.rxm := rfl
@[simp] theorem answer_result (r : Ret) : (s.answer r).result = s.result := rfl
@[simp] theorem answer_ports (r : Ret) : (s.answer r).ports = s.ports := rfl
@[simp] theorem answer_outs (r : Ret) : (s.answer r).outs = s.outs := rfl
@[simp] theorem answer_ret (r : Ret) : (s.answer r).ret = r := rfl
@[simp] theorem answer_schedule (r : Ret) : (s.answer r).schedule = s.schedule := rfl

/-! `goto` moves `STEP`. -/

@[simp] theorem goto_cfg (t : Seq) : (s.goto t).cfg = s.cfg := rfl
@[simp] theorem goto_eb (t : Seq) : (s.goto t).eb = s.eb := rfl
@[simp] theorem goto_live (t : Seq) : (s.goto t).live = s.live := rfl
@[simp] theorem goto_syncCnt (t : Seq) : (s.goto t).syncCnt = s.syncCnt := rfl
@[simp] theorem goto_dataCnt (t : Seq) : (s.goto t).dataCnt = s.dataCnt := rfl
@[simp] theorem goto_emptyCnt (t : Seq) : (s.goto t).emptyCnt = s.emptyCnt := rfl
@[simp] theorem goto_prevErr (t : Seq) : (s.goto t).prevErr = s.prevErr := rfl
@[simp] theorem goto_integ (t : Seq) : (s.goto t).integ = s.integ := rfl
@[simp] theorem goto_divState (t : Seq) : (s.goto t).divState = s.divState := rfl
@[simp] theorem goto_fcDegree (t : Seq) : (s.goto t).fcDegree = s.fcDegree := rfl
@[simp] theorem goto_lastCorr (t : Seq) : (s.goto t).lastCorr = s.lastCorr := rfl
@[simp] theorem goto_lastError (t : Seq) : (s.goto t).lastError = s.lastError := rfl
@[simp] theorem goto_halt (t : Seq) : (s.goto t).halt = s.halt := rfl
@[simp] theorem goto_snap (t : Seq) : (s.goto t).snap = s.snap := rfl
@[simp] theorem goto_boundary (t : Seq) : (s.goto t).boundary = s.boundary := rfl
@[simp] theorem goto_seq (t : Seq) : (s.goto t).seq = t := rfl
@[simp] theorem goto_out (t : Seq) : (s.goto t).out = s.out := rfl
@[simp] theorem goto_rxm (t : Seq) : (s.goto t).rxm = s.rxm := rfl
@[simp] theorem goto_result (t : Seq) : (s.goto t).result = s.result := rfl
@[simp] theorem goto_ports (t : Seq) : (s.goto t).ports = s.ports := rfl
@[simp] theorem goto_outs (t : Seq) : (s.goto t).outs = s.outs := rfl
@[simp] theorem goto_ret (t : Seq) : (s.goto t).ret = s.ret := rfl
@[simp] theorem goto_schedule (t : Seq) : (s.goto t).schedule = s.schedule := rfl

/-! `setOut` writes an outbound slot. -/

@[simp] theorem setOut_cfg (i : Nat) (m : Message) : (s.setOut i m).cfg = s.cfg := rfl
@[simp] theorem setOut_eb (i : Nat) (m : Message) : (s.setOut i m).eb = s.eb := rfl
@[simp] theorem setOut_live (i : Nat) (m : Message) : (s.setOut i m).live = s.live := rfl
@[simp] theorem setOut_syncCnt (i : Nat) (m : Message) : (s.setOut i m).syncCnt = s.syncCnt := rfl
@[simp] theorem setOut_dataCnt (i : Nat) (m : Message) : (s.setOut i m).dataCnt = s.dataCnt := rfl
@[simp] theorem setOut_emptyCnt (i : Nat) (m : Message) : (s.setOut i m).emptyCnt = s.emptyCnt := rfl
@[simp] theorem setOut_prevErr (i : Nat) (m : Message) : (s.setOut i m).prevErr = s.prevErr := rfl
@[simp] theorem setOut_integ (i : Nat) (m : Message) : (s.setOut i m).integ = s.integ := rfl
@[simp] theorem setOut_divState (i : Nat) (m : Message) : (s.setOut i m).divState = s.divState := rfl
@[simp] theorem setOut_fcDegree (i : Nat) (m : Message) : (s.setOut i m).fcDegree = s.fcDegree := rfl
@[simp] theorem setOut_lastCorr (i : Nat) (m : Message) : (s.setOut i m).lastCorr = s.lastCorr := rfl
@[simp] theorem setOut_lastError (i : Nat) (m : Message) : (s.setOut i m).lastError = s.lastError := rfl
@[simp] theorem setOut_halt (i : Nat) (m : Message) : (s.setOut i m).halt = s.halt := rfl
@[simp] theorem setOut_snap (i : Nat) (m : Message) : (s.setOut i m).snap = s.snap := rfl
@[simp] theorem setOut_boundary (i : Nat) (m : Message) : (s.setOut i m).boundary = s.boundary := rfl
@[simp] theorem setOut_seq (i : Nat) (m : Message) : (s.setOut i m).seq = s.seq := rfl
@[simp] theorem setOut_out (i : Nat) (m : Message) : (s.setOut i m).out = s.out.set i m := rfl
@[simp] theorem setOut_rxm (i : Nat) (m : Message) : (s.setOut i m).rxm = s.rxm := rfl
@[simp] theorem setOut_result (i : Nat) (m : Message) : (s.setOut i m).result = s.result := rfl
@[simp] theorem setOut_ports (i : Nat) (m : Message) : (s.setOut i m).ports = s.ports := rfl
@[simp] theorem setOut_outs (i : Nat) (m : Message) : (s.setOut i m).outs = s.outs := rfl
@[simp] theorem setOut_ret (i : Nat) (m : Message) : (s.setOut i m).ret = s.ret := rfl
@[simp] theorem setOut_schedule (i : Nat) (m : Message) : (s.setOut i m).schedule = s.schedule := rfl

/-! `setEb` writes a buffer. -/

@[simp] theorem setEb_cfg (i : Nat) (q : List Message) : (s.setEb i q).cfg = s.cfg := rfl
@[simp] theorem setEb_eb (i : Nat) (q : List Message) : (s.setEb i q).eb = s.eb.set i q := rfl
@[simp] theorem setEb_live (i : Nat) (q : List Message) : (s.setEb i q).live = s.live := rfl
@[simp] theorem setEb_syncCnt (i : Nat) (q : List Message) : (s.setEb i q).syncCnt = s.syncCnt := rfl
@[simp] theorem setEb_dataCnt (i : Nat) (q : List Message) : (s.setEb i q).dataCnt = s.dataCnt := rfl
@[simp] theorem setEb_emptyCnt (i : Nat) (q : List Message) : (s.setEb i q).emptyCnt = s.emptyCnt := rfl
@[simp] theorem setEb_prevErr (i : Nat) (q : List Message) : (s.setEb i q).prevErr = s.prevErr := rfl
@[simp] theorem setEb_integ (i : Nat) (q : List Message) : (s.setEb i q).integ = s.integ := rfl
@[simp] theorem setEb_divState (i : Nat) (q : List Message) : (s.setEb i q).divState = s.divState := rfl
@[simp] theorem setEb_fcDegree (i : Nat) (q : List Message) : (s.setEb i q).fcDegree = s.fcDegree := rfl
@[simp] theorem setEb_lastCorr (i : Nat) (q : List Message) : (s.setEb i q).lastCorr = s.lastCorr := rfl
@[simp] theorem setEb_lastError (i : Nat) (q : List Message) : (s.setEb i q).lastError = s.lastError := rfl
@[simp] theorem setEb_halt (i : Nat) (q : List Message) : (s.setEb i q).halt = s.halt := rfl
@[simp] theorem setEb_snap (i : Nat) (q : List Message) : (s.setEb i q).snap = s.snap := rfl
@[simp] theorem setEb_boundary (i : Nat) (q : List Message) : (s.setEb i q).boundary = s.boundary := rfl
@[simp] theorem setEb_seq (i : Nat) (q : List Message) : (s.setEb i q).seq = s.seq := rfl
@[simp] theorem setEb_out (i : Nat) (q : List Message) : (s.setEb i q).out = s.out := rfl
@[simp] theorem setEb_rxm (i : Nat) (q : List Message) : (s.setEb i q).rxm = s.rxm := rfl
@[simp] theorem setEb_result (i : Nat) (q : List Message) : (s.setEb i q).result = s.result := rfl
@[simp] theorem setEb_ports (i : Nat) (q : List Message) : (s.setEb i q).ports = s.ports := rfl
@[simp] theorem setEb_outs (i : Nat) (q : List Message) : (s.setEb i q).outs = s.outs := rfl
@[simp] theorem setEb_ret (i : Nat) (q : List Message) : (s.setEb i q).ret = s.ret := rfl
@[simp] theorem setEb_schedule (i : Nat) (q : List Message) : (s.setEb i q).schedule = s.schedule := rfl

/-! `linkWrite` writes the links. -/

@[simp] theorem linkWrite_cfg (ws : List Word) : (s.linkWrite ws).cfg = s.cfg := rfl
@[simp] theorem linkWrite_eb (ws : List Word) : (s.linkWrite ws).eb = s.eb := rfl
@[simp] theorem linkWrite_live (ws : List Word) : (s.linkWrite ws).live = s.live := rfl
@[simp] theorem linkWrite_syncCnt (ws : List Word) : (s.linkWrite ws).syncCnt = s.syncCnt := rfl
@[simp] theorem linkWrite_dataCnt (ws : List Word) : (s.linkWrite ws).dataCnt = s.dataCnt := rfl
@[simp] theorem linkWrite_emptyCnt (ws : List Word) : (s.linkWrite ws).emptyCnt = s.emptyCnt := rfl
@[simp] theorem linkWrite_prevErr (ws : List Word) : (s.linkWrite ws).prevErr = s.prevErr := rfl
@[simp] theorem linkWrite_integ (ws : List Word) : (s.linkWrite ws).integ = s.integ := rfl
@[simp] theorem linkWrite_divState (ws : List Word) : (s.linkWrite ws).divState = s.divState := rfl
@[simp] theorem linkWrite_fcDegree (ws : List Word) : (s.linkWrite ws).fcDegree = s.fcDegree := rfl
@[simp] theorem linkWrite_lastCorr (ws : List Word) : (s.linkWrite ws).lastCorr = s.lastCorr := rfl
@[simp] theorem linkWrite_lastError (ws : List Word) : (s.linkWrite ws).lastError = s.lastError := rfl
@[simp] theorem linkWrite_halt (ws : List Word) : (s.linkWrite ws).halt = s.halt := rfl
@[simp] theorem linkWrite_snap (ws : List Word) : (s.linkWrite ws).snap = s.snap := rfl
@[simp] theorem linkWrite_boundary (ws : List Word) : (s.linkWrite ws).boundary = s.boundary := rfl
@[simp] theorem linkWrite_seq (ws : List Word) : (s.linkWrite ws).seq = s.seq := rfl
@[simp] theorem linkWrite_out (ws : List Word) : (s.linkWrite ws).out = s.out := rfl
@[simp] theorem linkWrite_rxm (ws : List Word) : (s.linkWrite ws).rxm = s.rxm := rfl
@[simp] theorem linkWrite_result (ws : List Word) : (s.linkWrite ws).result = s.result := rfl
@[simp] theorem linkWrite_ports (ws : List Word) : (s.linkWrite ws).ports = s.ports := rfl
@[simp] theorem linkWrite_outs (ws : List Word) : (s.linkWrite ws).outs = { s.outs with tx := some ws } := rfl
@[simp] theorem linkWrite_ret (ws : List Word) : (s.linkWrite ws).ret = s.ret := rfl
@[simp] theorem linkWrite_schedule (ws : List Word) : (s.linkWrite ws).schedule = s.schedule := rfl

/-! `consWrite` writes the consumer. -/

@[simp] theorem consWrite_cfg (ws : List Word) : (s.consWrite ws).cfg = s.cfg := rfl
@[simp] theorem consWrite_eb (ws : List Word) : (s.consWrite ws).eb = s.eb := rfl
@[simp] theorem consWrite_live (ws : List Word) : (s.consWrite ws).live = s.live := rfl
@[simp] theorem consWrite_syncCnt (ws : List Word) : (s.consWrite ws).syncCnt = s.syncCnt := rfl
@[simp] theorem consWrite_dataCnt (ws : List Word) : (s.consWrite ws).dataCnt = s.dataCnt := rfl
@[simp] theorem consWrite_emptyCnt (ws : List Word) : (s.consWrite ws).emptyCnt = s.emptyCnt := rfl
@[simp] theorem consWrite_prevErr (ws : List Word) : (s.consWrite ws).prevErr = s.prevErr := rfl
@[simp] theorem consWrite_integ (ws : List Word) : (s.consWrite ws).integ = s.integ := rfl
@[simp] theorem consWrite_divState (ws : List Word) : (s.consWrite ws).divState = s.divState := rfl
@[simp] theorem consWrite_fcDegree (ws : List Word) : (s.consWrite ws).fcDegree = s.fcDegree := rfl
@[simp] theorem consWrite_lastCorr (ws : List Word) : (s.consWrite ws).lastCorr = s.lastCorr := rfl
@[simp] theorem consWrite_lastError (ws : List Word) : (s.consWrite ws).lastError = s.lastError := rfl
@[simp] theorem consWrite_halt (ws : List Word) : (s.consWrite ws).halt = s.halt := rfl
@[simp] theorem consWrite_snap (ws : List Word) : (s.consWrite ws).snap = s.snap := rfl
@[simp] theorem consWrite_boundary (ws : List Word) : (s.consWrite ws).boundary = s.boundary := rfl
@[simp] theorem consWrite_seq (ws : List Word) : (s.consWrite ws).seq = s.seq := rfl
@[simp] theorem consWrite_out (ws : List Word) : (s.consWrite ws).out = s.out := rfl
@[simp] theorem consWrite_rxm (ws : List Word) : (s.consWrite ws).rxm = s.rxm := rfl
@[simp] theorem consWrite_result (ws : List Word) : (s.consWrite ws).result = s.result := rfl
@[simp] theorem consWrite_ports (ws : List Word) : (s.consWrite ws).ports = s.ports := rfl
@[simp] theorem consWrite_outs (ws : List Word) : (s.consWrite ws).outs = { s.outs with fwd := s.outs.fwd ++ ws } := rfl
@[simp] theorem consWrite_ret (ws : List Word) : (s.consWrite ws).ret = s.ret := rfl
@[simp] theorem consWrite_schedule (ws : List Word) : (s.consWrite ws).schedule = s.schedule := rfl

/-! `setActw` sets the value given to the actuator. -/

@[simp] theorem setActw_cfg (v : Option Int) : (s.setActw v).cfg = s.cfg := rfl
@[simp] theorem setActw_eb (v : Option Int) : (s.setActw v).eb = s.eb := rfl
@[simp] theorem setActw_live (v : Option Int) : (s.setActw v).live = s.live := rfl
@[simp] theorem setActw_syncCnt (v : Option Int) : (s.setActw v).syncCnt = s.syncCnt := rfl
@[simp] theorem setActw_dataCnt (v : Option Int) : (s.setActw v).dataCnt = s.dataCnt := rfl
@[simp] theorem setActw_emptyCnt (v : Option Int) : (s.setActw v).emptyCnt = s.emptyCnt := rfl
@[simp] theorem setActw_prevErr (v : Option Int) : (s.setActw v).prevErr = s.prevErr := rfl
@[simp] theorem setActw_integ (v : Option Int) : (s.setActw v).integ = s.integ := rfl
@[simp] theorem setActw_divState (v : Option Int) : (s.setActw v).divState = s.divState := rfl
@[simp] theorem setActw_fcDegree (v : Option Int) : (s.setActw v).fcDegree = s.fcDegree := rfl
@[simp] theorem setActw_lastCorr (v : Option Int) : (s.setActw v).lastCorr = s.lastCorr := rfl
@[simp] theorem setActw_lastError (v : Option Int) : (s.setActw v).lastError = s.lastError := rfl
@[simp] theorem setActw_halt (v : Option Int) : (s.setActw v).halt = s.halt := rfl
@[simp] theorem setActw_snap (v : Option Int) : (s.setActw v).snap = s.snap := rfl
@[simp] theorem setActw_boundary (v : Option Int) : (s.setActw v).boundary = s.boundary := rfl
@[simp] theorem setActw_seq (v : Option Int) : (s.setActw v).seq = s.seq := rfl
@[simp] theorem setActw_out (v : Option Int) : (s.setActw v).out = s.out := rfl
@[simp] theorem setActw_rxm (v : Option Int) : (s.setActw v).rxm = s.rxm := rfl
@[simp] theorem setActw_result (v : Option Int) : (s.setActw v).result = s.result := rfl
@[simp] theorem setActw_ports (v : Option Int) : (s.setActw v).ports = s.ports := rfl
@[simp] theorem setActw_outs (v : Option Int) : (s.setActw v).outs = { s.outs with actw := v } := rfl
@[simp] theorem setActw_ret (v : Option Int) : (s.setActw v).ret = s.ret := rfl
@[simp] theorem setActw_schedule (v : Option Int) : (s.setActw v).schedule = s.schedule := rfl

/-! `userRead` consumes the producer word. -/

@[simp] theorem userRead_cfg : (s.userRead.2).cfg = s.cfg := rfl
@[simp] theorem userRead_eb : (s.userRead.2).eb = s.eb := rfl
@[simp] theorem userRead_live : (s.userRead.2).live = s.live := rfl
@[simp] theorem userRead_syncCnt : (s.userRead.2).syncCnt = s.syncCnt := rfl
@[simp] theorem userRead_dataCnt : (s.userRead.2).dataCnt = s.dataCnt := rfl
@[simp] theorem userRead_emptyCnt : (s.userRead.2).emptyCnt = s.emptyCnt := rfl
@[simp] theorem userRead_prevErr : (s.userRead.2).prevErr = s.prevErr := rfl
@[simp] theorem userRead_integ : (s.userRead.2).integ = s.integ := rfl
@[simp] theorem userRead_divState : (s.userRead.2).divState = s.divState := rfl
@[simp] theorem userRead_fcDegree : (s.userRead.2).fcDegree = s.fcDegree := rfl
@[simp] theorem userRead_lastCorr : (s.userRead.2).lastCorr = s.lastCorr := rfl
@[simp] theorem userRead_lastError : (s.userRead.2).lastError = s.lastError := rfl
@[simp] theorem userRead_halt : (s.userRead.2).halt = s.halt := rfl
@[simp] theorem userRead_snap : (s.userRead.2).snap = s.snap := rfl
@[simp] theorem userRead_boundary : (s.userRead.2).boundary = s.boundary := rfl
@[simp] theorem userRead_seq : (s.userRead.2).seq = s.seq := rfl
@[simp] theorem userRead_out : (s.userRead.2).out = s.out := rfl
@[simp] theorem userRead_rxm : (s.userRead.2).rxm = s.rxm := rfl
@[simp] theorem userRead_result : (s.userRead.2).result = s.result := rfl
@[simp] theorem userRead_ports : (s.userRead.2).ports = { s.ports with user := none } := rfl
@[simp] theorem userRead_outs : (s.userRead.2).outs = s.outs := rfl
@[simp] theorem userRead_ret : (s.userRead.2).ret = s.ret := rfl
@[simp] theorem userRead_schedule : (s.userRead.2).schedule = s.schedule := rfl

/-! `linkRead` takes the bursts. -/

@[simp] theorem linkRead_cfg : (s.linkRead.2).cfg = s.cfg := rfl
@[simp] theorem linkRead_eb : (s.linkRead.2).eb = s.eb := rfl
@[simp] theorem linkRead_live : (s.linkRead.2).live = s.live := rfl
@[simp] theorem linkRead_syncCnt : (s.linkRead.2).syncCnt = s.syncCnt := rfl
@[simp] theorem linkRead_dataCnt : (s.linkRead.2).dataCnt = s.dataCnt := rfl
@[simp] theorem linkRead_emptyCnt : (s.linkRead.2).emptyCnt = s.emptyCnt := rfl
@[simp] theorem linkRead_prevErr : (s.linkRead.2).prevErr = s.prevErr := rfl
@[simp] theorem linkRead_integ : (s.linkRead.2).integ = s.integ := rfl
@[simp] theorem linkRead_divState : (s.linkRead.2).divState = s.divState := rfl
@[simp] theorem linkRead_fcDegree : (s.linkRead.2).fcDegree = s.fcDegree := rfl
@[simp] theorem linkRead_lastCorr : (s.linkRead.2).lastCorr = s.lastCorr := rfl
@[simp] theorem linkRead_lastError : (s.linkRead.2).lastError = s.lastError := rfl
@[simp] theorem linkRead_halt : (s.linkRead.2).halt = s.halt := rfl
@[simp] theorem linkRead_snap : (s.linkRead.2).snap = s.snap := rfl
@[simp] theorem linkRead_boundary : (s.linkRead.2).boundary = s.boundary := rfl
@[simp] theorem linkRead_seq : (s.linkRead.2).seq = s.seq := rfl
@[simp] theorem linkRead_out : (s.linkRead.2).out = s.out := rfl
@[simp] theorem linkRead_rxm : (s.linkRead.2).rxm = s.rxm := rfl
@[simp] theorem linkRead_result : (s.linkRead.2).result = s.result := rfl
@[simp] theorem linkRead_ports : (s.linkRead.2).ports = { s.ports with rx := perLink s.cfg.degree fun i => (s.ports.rx.getD i []).drop s.cfg.k } := rfl
@[simp] theorem linkRead_outs : (s.linkRead.2).outs = s.outs := rfl
@[simp] theorem linkRead_ret : (s.linkRead.2).ret = s.ret := rfl
@[simp] theorem linkRead_schedule : (s.linkRead.2).schedule = s.schedule := rfl

/-! `updateLive` updates the liveness counters. -/

@[simp] theorem updateLive_cfg (rx : List (List Word)) : (s.updateLive rx).cfg = s.cfg := rfl
@[simp] theorem updateLive_eb (rx : List (List Word)) : (s.updateLive rx).eb = s.eb := rfl
@[simp] theorem updateLive_live (rx : List (List Word)) : (s.updateLive rx).live = perLink s.cfg.degree fun i => nextLive s.cfg.toRawConfig (s.liveAt i) (rx.getD i []).length := rfl
@[simp] theorem updateLive_syncCnt (rx : List (List Word)) : (s.updateLive rx).syncCnt = s.syncCnt := rfl
@[simp] theorem updateLive_dataCnt (rx : List (List Word)) : (s.updateLive rx).dataCnt = s.dataCnt := rfl
@[simp] theorem updateLive_emptyCnt (rx : List (List Word)) : (s.updateLive rx).emptyCnt = s.emptyCnt := rfl
@[simp] theorem updateLive_prevErr (rx : List (List Word)) : (s.updateLive rx).prevErr = s.prevErr := rfl
@[simp] theorem updateLive_integ (rx : List (List Word)) : (s.updateLive rx).integ = s.integ := rfl
@[simp] theorem updateLive_divState (rx : List (List Word)) : (s.updateLive rx).divState = s.divState := rfl
@[simp] theorem updateLive_fcDegree (rx : List (List Word)) : (s.updateLive rx).fcDegree = s.fcDegree := rfl
@[simp] theorem updateLive_lastCorr (rx : List (List Word)) : (s.updateLive rx).lastCorr = s.lastCorr := rfl
@[simp] theorem updateLive_lastError (rx : List (List Word)) : (s.updateLive rx).lastError = s.lastError := rfl
@[simp] theorem updateLive_halt (rx : List (List Word)) : (s.updateLive rx).halt = s.halt := rfl
@[simp] theorem updateLive_snap (rx : List (List Word)) : (s.updateLive rx).snap = s.snap := rfl
@[simp] theorem updateLive_boundary (rx : List (List Word)) : (s.updateLive rx).boundary = s.boundary := rfl
@[simp] theorem updateLive_seq (rx : List (List Word)) : (s.updateLive rx).seq = s.seq := rfl
@[simp] theorem updateLive_out (rx : List (List Word)) : (s.updateLive rx).out = s.out := rfl
@[simp] theorem updateLive_rxm (rx : List (List Word)) : (s.updateLive rx).rxm = s.rxm := rfl
@[simp] theorem updateLive_result (rx : List (List Word)) : (s.updateLive rx).result = s.result := rfl
@[simp] theorem updateLive_ports (rx : List (List Word)) : (s.updateLive rx).ports = s.ports := rfl
@[simp] theorem updateLive_outs (rx : List (List Word)) : (s.updateLive rx).outs = s.outs := rfl
@[simp] theorem updateLive_ret (rx : List (List Word)) : (s.updateLive rx).ret = s.ret := rfl
@[simp] theorem updateLive_schedule (rx : List (List Word)) : (s.updateLive rx).schedule = s.schedule := rfl

/-! `raise` raises a recoverable error. -/

@[simp] theorem raise_cfg (e : ResultCode) : (s.raise e).cfg = s.cfg := rfl
@[simp] theorem raise_eb (e : ResultCode) : (s.raise e).eb = s.eb := rfl
@[simp] theorem raise_live (e : ResultCode) : (s.raise e).live = s.live := rfl
@[simp] theorem raise_syncCnt (e : ResultCode) : (s.raise e).syncCnt = s.syncCnt := rfl
@[simp] theorem raise_dataCnt (e : ResultCode) : (s.raise e).dataCnt = s.dataCnt := rfl
@[simp] theorem raise_emptyCnt (e : ResultCode) : (s.raise e).emptyCnt = s.emptyCnt := rfl
@[simp] theorem raise_prevErr (e : ResultCode) : (s.raise e).prevErr = s.prevErr := rfl
@[simp] theorem raise_integ (e : ResultCode) : (s.raise e).integ = s.integ := rfl
@[simp] theorem raise_divState (e : ResultCode) : (s.raise e).divState = s.divState := rfl
@[simp] theorem raise_fcDegree (e : ResultCode) : (s.raise e).fcDegree = s.fcDegree := rfl
@[simp] theorem raise_lastCorr (e : ResultCode) : (s.raise e).lastCorr = s.lastCorr := rfl
@[simp] theorem raise_lastError (e : ResultCode) : (s.raise e).lastError = s.lastError := rfl
@[simp] theorem raise_halt (e : ResultCode) : (s.raise e).halt = s.halt := rfl
@[simp] theorem raise_snap (e : ResultCode) : (s.raise e).snap = s.snap := rfl
@[simp] theorem raise_boundary (e : ResultCode) : (s.raise e).boundary = s.boundary := rfl
@[simp] theorem raise_seq (e : ResultCode) : (s.raise e).seq = s.seq := rfl
@[simp] theorem raise_out (e : ResultCode) : (s.raise e).out = s.out := rfl
@[simp] theorem raise_rxm (e : ResultCode) : (s.raise e).rxm = s.rxm := rfl
@[simp] theorem raise_result (e : ResultCode) : (s.raise e).result = if s.result = .ok then e else s.result := rfl
@[simp] theorem raise_ports (e : ResultCode) : (s.raise e).ports = s.ports := rfl
@[simp] theorem raise_outs (e : ResultCode) : (s.raise e).outs = s.outs := rfl
@[simp] theorem raise_ret (e : ResultCode) : (s.raise e).ret = s.ret := rfl
@[simp] theorem raise_schedule (e : ResultCode) : (s.raise e).schedule = s.schedule := rfl

/-! `raiseFatal` raises a fatal error. -/

@[simp] theorem raiseFatal_cfg (h : HaltCause) : (s.raiseFatal h).cfg = s.cfg := rfl
@[simp] theorem raiseFatal_eb (h : HaltCause) : (s.raiseFatal h).eb = s.eb := rfl
@[simp] theorem raiseFatal_live (h : HaltCause) : (s.raiseFatal h).live = s.live := rfl
@[simp] theorem raiseFatal_syncCnt (h : HaltCause) : (s.raiseFatal h).syncCnt = s.syncCnt := rfl
@[simp] theorem raiseFatal_dataCnt (h : HaltCause) : (s.raiseFatal h).dataCnt = s.dataCnt := rfl
@[simp] theorem raiseFatal_emptyCnt (h : HaltCause) : (s.raiseFatal h).emptyCnt = s.emptyCnt := rfl
@[simp] theorem raiseFatal_prevErr (h : HaltCause) : (s.raiseFatal h).prevErr = s.prevErr := rfl
@[simp] theorem raiseFatal_integ (h : HaltCause) : (s.raiseFatal h).integ = s.integ := rfl
@[simp] theorem raiseFatal_divState (h : HaltCause) : (s.raiseFatal h).divState = s.divState := rfl
@[simp] theorem raiseFatal_fcDegree (h : HaltCause) : (s.raiseFatal h).fcDegree = s.fcDegree := rfl
@[simp] theorem raiseFatal_lastCorr (h : HaltCause) : (s.raiseFatal h).lastCorr = s.lastCorr := rfl
@[simp] theorem raiseFatal_lastError (h : HaltCause) : (s.raiseFatal h).lastError = haltResult h := rfl
@[simp] theorem raiseFatal_halt (h : HaltCause) : (s.raiseFatal h).halt = h := rfl
@[simp] theorem raiseFatal_snap (h : HaltCause) : (s.raiseFatal h).snap = s.boundary.halted h := rfl
@[simp] theorem raiseFatal_boundary (h : HaltCause) : (s.raiseFatal h).boundary = s.boundary.halted h := rfl
@[simp] theorem raiseFatal_seq (h : HaltCause) : (s.raiseFatal h).seq = .idle := rfl
@[simp] theorem raiseFatal_out (h : HaltCause) : (s.raiseFatal h).out = s.out := rfl
@[simp] theorem raiseFatal_rxm (h : HaltCause) : (s.raiseFatal h).rxm = s.rxm := rfl
@[simp] theorem raiseFatal_result (h : HaltCause) : (s.raiseFatal h).result = haltResult h := rfl
@[simp] theorem raiseFatal_ports (h : HaltCause) : (s.raiseFatal h).ports = s.ports := rfl
@[simp] theorem raiseFatal_outs (h : HaltCause) : (s.raiseFatal h).outs = s.outs := rfl
@[simp] theorem raiseFatal_ret (h : HaltCause) : (s.raiseFatal h).ret = .result (haltResult h) := rfl
@[simp] theorem raiseFatal_schedule (h : HaltCause) : (s.raiseFatal h).schedule = s.schedule := rfl

/-! `recordError` records an error. -/

@[simp] theorem recordError_cfg (e : ResultCode) : (s.recordError e).cfg = s.cfg := rfl
@[simp] theorem recordError_eb (e : ResultCode) : (s.recordError e).eb = s.eb := rfl
@[simp] theorem recordError_live (e : ResultCode) : (s.recordError e).live = s.live := rfl
@[simp] theorem recordError_syncCnt (e : ResultCode) : (s.recordError e).syncCnt = s.syncCnt := rfl
@[simp] theorem recordError_dataCnt (e : ResultCode) : (s.recordError e).dataCnt = s.dataCnt := rfl
@[simp] theorem recordError_emptyCnt (e : ResultCode) : (s.recordError e).emptyCnt = s.emptyCnt := rfl
@[simp] theorem recordError_prevErr (e : ResultCode) : (s.recordError e).prevErr = s.prevErr := rfl
@[simp] theorem recordError_integ (e : ResultCode) : (s.recordError e).integ = s.integ := rfl
@[simp] theorem recordError_divState (e : ResultCode) : (s.recordError e).divState = s.divState := rfl
@[simp] theorem recordError_fcDegree (e : ResultCode) : (s.recordError e).fcDegree = s.fcDegree := rfl
@[simp] theorem recordError_lastCorr (e : ResultCode) : (s.recordError e).lastCorr = s.lastCorr := rfl
@[simp] theorem recordError_lastError (e : ResultCode) : (s.recordError e).lastError = e := rfl
@[simp] theorem recordError_halt (e : ResultCode) : (s.recordError e).halt = s.halt := rfl
@[simp] theorem recordError_snap (e : ResultCode) : (s.recordError e).snap = { s.snap with lastError := e } := rfl
@[simp] theorem recordError_boundary (e : ResultCode) : (s.recordError e).boundary = s.boundary := rfl
@[simp] theorem recordError_seq (e : ResultCode) : (s.recordError e).seq = s.seq := rfl
@[simp] theorem recordError_out (e : ResultCode) : (s.recordError e).out = s.out := rfl
@[simp] theorem recordError_rxm (e : ResultCode) : (s.recordError e).rxm = s.rxm := rfl
@[simp] theorem recordError_result (e : ResultCode) : (s.recordError e).result = s.result := rfl
@[simp] theorem recordError_ports (e : ResultCode) : (s.recordError e).ports = s.ports := rfl
@[simp] theorem recordError_outs (e : ResultCode) : (s.recordError e).outs = s.outs := rfl
@[simp] theorem recordError_ret (e : ResultCode) : (s.recordError e).ret = s.ret := rfl
@[simp] theorem recordError_schedule (e : ResultCode) : (s.recordError e).schedule = s.schedule := rfl

/-! `haltedTick` answers a trigger while halted. -/

@[simp] theorem haltedTick_cfg : (s.haltedTick).cfg = s.cfg := rfl
@[simp] theorem haltedTick_eb : (s.haltedTick).eb = s.eb := rfl
@[simp] theorem haltedTick_live : (s.haltedTick).live = s.live := rfl
@[simp] theorem haltedTick_syncCnt : (s.haltedTick).syncCnt = s.syncCnt := rfl
@[simp] theorem haltedTick_dataCnt : (s.haltedTick).dataCnt = s.dataCnt := rfl
@[simp] theorem haltedTick_emptyCnt : (s.haltedTick).emptyCnt = s.emptyCnt := rfl
@[simp] theorem haltedTick_prevErr : (s.haltedTick).prevErr = s.prevErr := rfl
@[simp] theorem haltedTick_integ : (s.haltedTick).integ = s.integ := rfl
@[simp] theorem haltedTick_divState : (s.haltedTick).divState = s.divState := rfl
@[simp] theorem haltedTick_fcDegree : (s.haltedTick).fcDegree = s.fcDegree := rfl
@[simp] theorem haltedTick_lastCorr : (s.haltedTick).lastCorr = s.lastCorr := rfl
@[simp] theorem haltedTick_lastError : (s.haltedTick).lastError = s.lastError := rfl
@[simp] theorem haltedTick_halt : (s.haltedTick).halt = s.halt := rfl
@[simp] theorem haltedTick_snap : (s.haltedTick).snap = s.snap := rfl
@[simp] theorem haltedTick_boundary : (s.haltedTick).boundary = s.boundary := rfl
@[simp] theorem haltedTick_seq : (s.haltedTick).seq = s.seq := rfl
@[simp] theorem haltedTick_out : (s.haltedTick).out = s.out := rfl
@[simp] theorem haltedTick_rxm : (s.haltedTick).rxm = s.rxm := rfl
@[simp] theorem haltedTick_result : (s.haltedTick).result = s.result := rfl
@[simp] theorem haltedTick_ports : (s.haltedTick).ports = s.ports := rfl
@[simp] theorem haltedTick_outs : (s.haltedTick).outs = Outs.nothing s.cfg.toRawConfig := rfl
@[simp] theorem haltedTick_ret : (s.haltedTick).ret = .result (haltResult s.halt) := rfl
@[simp] theorem haltedTick_schedule : (s.haltedTick).schedule = s.schedule := rfl

/-! `pidMove` moves the PID state. -/

@[simp] theorem pidMove_cfg (e : Fx) : (s.pidMove e).cfg = s.cfg := rfl
@[simp] theorem pidMove_eb (e : Fx) : (s.pidMove e).eb = s.eb := rfl
@[simp] theorem pidMove_live (e : Fx) : (s.pidMove e).live = s.live := rfl
@[simp] theorem pidMove_syncCnt (e : Fx) : (s.pidMove e).syncCnt = s.syncCnt := rfl
@[simp] theorem pidMove_dataCnt (e : Fx) : (s.pidMove e).dataCnt = s.dataCnt := rfl
@[simp] theorem pidMove_emptyCnt (e : Fx) : (s.pidMove e).emptyCnt = s.emptyCnt := rfl
@[simp] theorem pidMove_prevErr (e : Fx) : (s.pidMove e).prevErr = e := rfl
@[simp] theorem pidMove_integ (e : Fx) : (s.pidMove e).integ = satAdd s.cfg.toRawConfig s.integ e := rfl
@[simp] theorem pidMove_divState (e : Fx) : (s.pidMove e).divState = s.divState := rfl
@[simp] theorem pidMove_fcDegree (e : Fx) : (s.pidMove e).fcDegree = s.fcDegree := rfl
@[simp] theorem pidMove_lastCorr (e : Fx) : (s.pidMove e).lastCorr = s.lastCorr := rfl
@[simp] theorem pidMove_lastError (e : Fx) : (s.pidMove e).lastError = s.lastError := rfl
@[simp] theorem pidMove_halt (e : Fx) : (s.pidMove e).halt = s.halt := rfl
@[simp] theorem pidMove_snap (e : Fx) : (s.pidMove e).snap = s.snap := rfl
@[simp] theorem pidMove_boundary (e : Fx) : (s.pidMove e).boundary = s.boundary := rfl
@[simp] theorem pidMove_seq (e : Fx) : (s.pidMove e).seq = s.seq := rfl
@[simp] theorem pidMove_out (e : Fx) : (s.pidMove e).out = s.out := rfl
@[simp] theorem pidMove_rxm (e : Fx) : (s.pidMove e).rxm = s.rxm := rfl
@[simp] theorem pidMove_result (e : Fx) : (s.pidMove e).result = s.result := rfl
@[simp] theorem pidMove_ports (e : Fx) : (s.pidMove e).ports = s.ports := rfl
@[simp] theorem pidMove_outs (e : Fx) : (s.pidMove e).outs = s.outs := rfl
@[simp] theorem pidMove_ret (e : Fx) : (s.pidMove e).ret = s.ret := rfl
@[simp] theorem pidMove_schedule (e : Fx) : (s.pidMove e).schedule = s.schedule := rfl

/-! `fcSetDegree` sets the assumed degree. -/

@[simp] theorem fcSetDegree_cfg (d : Nat) : (s.fcSetDegree d).cfg = s.cfg := rfl
@[simp] theorem fcSetDegree_eb (d : Nat) : (s.fcSetDegree d).eb = s.eb := rfl
@[simp] theorem fcSetDegree_live (d : Nat) : (s.fcSetDegree d).live = s.live := rfl
@[simp] theorem fcSetDegree_syncCnt (d : Nat) : (s.fcSetDegree d).syncCnt = s.syncCnt := rfl
@[simp] theorem fcSetDegree_dataCnt (d : Nat) : (s.fcSetDegree d).dataCnt = s.dataCnt := rfl
@[simp] theorem fcSetDegree_emptyCnt (d : Nat) : (s.fcSetDegree d).emptyCnt = s.emptyCnt := rfl
@[simp] theorem fcSetDegree_prevErr (d : Nat) : (s.fcSetDegree d).prevErr = s.prevErr := rfl
@[simp] theorem fcSetDegree_integ (d : Nat) : (s.fcSetDegree d).integ = s.integ := rfl
@[simp] theorem fcSetDegree_divState (d : Nat) : (s.fcSetDegree d).divState = s.divState := rfl
@[simp] theorem fcSetDegree_fcDegree (d : Nat) : (s.fcSetDegree d).fcDegree = d := rfl
@[simp] theorem fcSetDegree_lastCorr (d : Nat) : (s.fcSetDegree d).lastCorr = s.lastCorr := rfl
@[simp] theorem fcSetDegree_lastError (d : Nat) : (s.fcSetDegree d).lastError = s.lastError := rfl
@[simp] theorem fcSetDegree_halt (d : Nat) : (s.fcSetDegree d).halt = s.halt := rfl
@[simp] theorem fcSetDegree_snap (d : Nat) : (s.fcSetDegree d).snap = s.snap := rfl
@[simp] theorem fcSetDegree_boundary (d : Nat) : (s.fcSetDegree d).boundary = s.boundary := rfl
@[simp] theorem fcSetDegree_seq (d : Nat) : (s.fcSetDegree d).seq = s.seq := rfl
@[simp] theorem fcSetDegree_out (d : Nat) : (s.fcSetDegree d).out = s.out := rfl
@[simp] theorem fcSetDegree_rxm (d : Nat) : (s.fcSetDegree d).rxm = s.rxm := rfl
@[simp] theorem fcSetDegree_result (d : Nat) : (s.fcSetDegree d).result = s.result := rfl
@[simp] theorem fcSetDegree_ports (d : Nat) : (s.fcSetDegree d).ports = s.ports := rfl
@[simp] theorem fcSetDegree_outs (d : Nat) : (s.fcSetDegree d).outs = s.outs := rfl
@[simp] theorem fcSetDegree_ret (d : Nat) : (s.fcSetDegree d).ret = s.ret := rfl
@[simp] theorem fcSetDegree_schedule (d : Nat) : (s.fcSetDegree d).schedule = s.schedule := rfl

/-! `setLastCorr` sets the last correction. -/

@[simp] theorem setLastCorr_cfg (x : Fx) : (s.setLastCorr x).cfg = s.cfg := rfl
@[simp] theorem setLastCorr_eb (x : Fx) : (s.setLastCorr x).eb = s.eb := rfl
@[simp] theorem setLastCorr_live (x : Fx) : (s.setLastCorr x).live = s.live := rfl
@[simp] theorem setLastCorr_syncCnt (x : Fx) : (s.setLastCorr x).syncCnt = s.syncCnt := rfl
@[simp] theorem setLastCorr_dataCnt (x : Fx) : (s.setLastCorr x).dataCnt = s.dataCnt := rfl
@[simp] theorem setLastCorr_emptyCnt (x : Fx) : (s.setLastCorr x).emptyCnt = s.emptyCnt := rfl
@[simp] theorem setLastCorr_prevErr (x : Fx) : (s.setLastCorr x).prevErr = s.prevErr := rfl
@[simp] theorem setLastCorr_integ (x : Fx) : (s.setLastCorr x).integ = s.integ := rfl
@[simp] theorem setLastCorr_divState (x : Fx) : (s.setLastCorr x).divState = s.divState := rfl
@[simp] theorem setLastCorr_fcDegree (x : Fx) : (s.setLastCorr x).fcDegree = s.fcDegree := rfl
@[simp] theorem setLastCorr_lastCorr (x : Fx) : (s.setLastCorr x).lastCorr = x := rfl
@[simp] theorem setLastCorr_lastError (x : Fx) : (s.setLastCorr x).lastError = s.lastError := rfl
@[simp] theorem setLastCorr_halt (x : Fx) : (s.setLastCorr x).halt = s.halt := rfl
@[simp] theorem setLastCorr_snap (x : Fx) : (s.setLastCorr x).snap = s.snap := rfl
@[simp] theorem setLastCorr_boundary (x : Fx) : (s.setLastCorr x).boundary = s.boundary := rfl
@[simp] theorem setLastCorr_seq (x : Fx) : (s.setLastCorr x).seq = s.seq := rfl
@[simp] theorem setLastCorr_out (x : Fx) : (s.setLastCorr x).out = s.out := rfl
@[simp] theorem setLastCorr_rxm (x : Fx) : (s.setLastCorr x).rxm = s.rxm := rfl
@[simp] theorem setLastCorr_result (x : Fx) : (s.setLastCorr x).result = s.result := rfl
@[simp] theorem setLastCorr_ports (x : Fx) : (s.setLastCorr x).ports = s.ports := rfl
@[simp] theorem setLastCorr_outs (x : Fx) : (s.setLastCorr x).outs = s.outs := rfl
@[simp] theorem setLastCorr_ret (x : Fx) : (s.setLastCorr x).ret = s.ret := rfl
@[simp] theorem setLastCorr_schedule (x : Fx) : (s.setLastCorr x).schedule = s.schedule := rfl

/-! `setDivState` sets the divider state. -/

@[simp] theorem setDivState_cfg (x : Fx) : (s.setDivState x).cfg = s.cfg := rfl
@[simp] theorem setDivState_eb (x : Fx) : (s.setDivState x).eb = s.eb := rfl
@[simp] theorem setDivState_live (x : Fx) : (s.setDivState x).live = s.live := rfl
@[simp] theorem setDivState_syncCnt (x : Fx) : (s.setDivState x).syncCnt = s.syncCnt := rfl
@[simp] theorem setDivState_dataCnt (x : Fx) : (s.setDivState x).dataCnt = s.dataCnt := rfl
@[simp] theorem setDivState_emptyCnt (x : Fx) : (s.setDivState x).emptyCnt = s.emptyCnt := rfl
@[simp] theorem setDivState_prevErr (x : Fx) : (s.setDivState x).prevErr = s.prevErr := rfl
@[simp] theorem setDivState_integ (x : Fx) : (s.setDivState x).integ = s.integ := rfl
@[simp] theorem setDivState_divState (x : Fx) : (s.setDivState x).divState = x := rfl
@[simp] theorem setDivState_fcDegree (x : Fx) : (s.setDivState x).fcDegree = s.fcDegree := rfl
@[simp] theorem setDivState_lastCorr (x : Fx) : (s.setDivState x).lastCorr = s.lastCorr := rfl
@[simp] theorem setDivState_lastError (x : Fx) : (s.setDivState x).lastError = s.lastError := rfl
@[simp] theorem setDivState_halt (x : Fx) : (s.setDivState x).halt = s.halt := rfl
@[simp] theorem setDivState_snap (x : Fx) : (s.setDivState x).snap = s.snap := rfl
@[simp] theorem setDivState_boundary (x : Fx) : (s.setDivState x).boundary = s.boundary := rfl
@[simp] theorem setDivState_seq (x : Fx) : (s.setDivState x).seq = s.seq := rfl
@[simp] theorem setDivState_out (x : Fx) : (s.setDivState x).out = s.out := rfl
@[simp] theorem setDivState_rxm (x : Fx) : (s.setDivState x).rxm = s.rxm := rfl
@[simp] theorem setDivState_result (x : Fx) : (s.setDivState x).result = s.result := rfl
@[simp] theorem setDivState_ports (x : Fx) : (s.setDivState x).ports = s.ports := rfl
@[simp] theorem setDivState_outs (x : Fx) : (s.setDivState x).outs = s.outs := rfl
@[simp] theorem setDivState_ret (x : Fx) : (s.setDivState x).ret = s.ret := rfl
@[simp] theorem setDivState_schedule (x : Fx) : (s.setDivState x).schedule = s.schedule := rfl

/-! `snapshotFc` copies the frequency-control fields. -/

@[simp] theorem snapshotFc_cfg : (s.snapshotFc).cfg = s.cfg := rfl
@[simp] theorem snapshotFc_eb : (s.snapshotFc).eb = s.eb := rfl
@[simp] theorem snapshotFc_live : (s.snapshotFc).live = s.live := rfl
@[simp] theorem snapshotFc_syncCnt : (s.snapshotFc).syncCnt = s.syncCnt := rfl
@[simp] theorem snapshotFc_dataCnt : (s.snapshotFc).dataCnt = s.dataCnt := rfl
@[simp] theorem snapshotFc_emptyCnt : (s.snapshotFc).emptyCnt = s.emptyCnt := rfl
@[simp] theorem snapshotFc_prevErr : (s.snapshotFc).prevErr = s.prevErr := rfl
@[simp] theorem snapshotFc_integ : (s.snapshotFc).integ = s.integ := rfl
@[simp] theorem snapshotFc_divState : (s.snapshotFc).divState = s.divState := rfl
@[simp] theorem snapshotFc_fcDegree : (s.snapshotFc).fcDegree = s.fcDegree := rfl
@[simp] theorem snapshotFc_lastCorr : (s.snapshotFc).lastCorr = s.lastCorr := rfl
@[simp] theorem snapshotFc_lastError : (s.snapshotFc).lastError = s.lastError := rfl
@[simp] theorem snapshotFc_halt : (s.snapshotFc).halt = s.halt := rfl
@[simp] theorem snapshotFc_snap : (s.snapshotFc).snap = { s.snap with lastCorr := s.lastCorr, divState := s.divState, degree := s.fcDegree } := rfl
@[simp] theorem snapshotFc_boundary : (s.snapshotFc).boundary = s.boundary := rfl
@[simp] theorem snapshotFc_seq : (s.snapshotFc).seq = s.seq := rfl
@[simp] theorem snapshotFc_out : (s.snapshotFc).out = s.out := rfl
@[simp] theorem snapshotFc_rxm : (s.snapshotFc).rxm = s.rxm := rfl
@[simp] theorem snapshotFc_result : (s.snapshotFc).result = s.result := rfl
@[simp] theorem snapshotFc_ports : (s.snapshotFc).ports = s.ports := rfl
@[simp] theorem snapshotFc_outs : (s.snapshotFc).outs = s.outs := rfl
@[simp] theorem snapshotFc_ret : (s.snapshotFc).ret = s.ret := rfl
@[simp] theorem snapshotFc_schedule : (s.snapshotFc).schedule = s.schedule := rfl

/-! `atBoundary` marks the end of a tick in the snapshot. -/

@[simp] theorem atBoundary_cfg : (s.atBoundary).cfg = s.cfg := rfl
@[simp] theorem atBoundary_eb : (s.atBoundary).eb = s.eb := rfl
@[simp] theorem atBoundary_live : (s.atBoundary).live = s.live := rfl
@[simp] theorem atBoundary_syncCnt : (s.atBoundary).syncCnt = s.syncCnt := rfl
@[simp] theorem atBoundary_dataCnt : (s.atBoundary).dataCnt = s.dataCnt := rfl
@[simp] theorem atBoundary_emptyCnt : (s.atBoundary).emptyCnt = s.emptyCnt := rfl
@[simp] theorem atBoundary_prevErr : (s.atBoundary).prevErr = s.prevErr := rfl
@[simp] theorem atBoundary_integ : (s.atBoundary).integ = s.integ := rfl
@[simp] theorem atBoundary_divState : (s.atBoundary).divState = s.divState := rfl
@[simp] theorem atBoundary_fcDegree : (s.atBoundary).fcDegree = s.fcDegree := rfl
@[simp] theorem atBoundary_lastCorr : (s.atBoundary).lastCorr = s.lastCorr := rfl
@[simp] theorem atBoundary_lastError : (s.atBoundary).lastError = s.lastError := rfl
@[simp] theorem atBoundary_halt : (s.atBoundary).halt = s.halt := rfl
@[simp] theorem atBoundary_snap : (s.atBoundary).snap = s.snap := rfl
@[simp] theorem atBoundary_boundary : (s.atBoundary).boundary = s.snap := rfl
@[simp] theorem atBoundary_seq : (s.atBoundary).seq = s.seq := rfl
@[simp] theorem atBoundary_out : (s.atBoundary).out = s.out := rfl
@[simp] theorem atBoundary_rxm : (s.atBoundary).rxm = s.rxm := rfl
@[simp] theorem atBoundary_result : (s.atBoundary).result = s.result := rfl
@[simp] theorem atBoundary_ports : (s.atBoundary).ports = s.ports := rfl
@[simp] theorem atBoundary_outs : (s.atBoundary).outs = s.outs := rfl
@[simp] theorem atBoundary_ret : (s.atBoundary).ret = s.ret := rfl
@[simp] theorem atBoundary_schedule : (s.atBoundary).schedule = s.schedule := rfl

/-! `Snap.halted` writes S4 and S8. -/

@[simp] theorem halted_level (p : Snap) (h : HaltCause) : (p.halted h).level = p.level := rfl
@[simp] theorem halted_syncCnt (p : Snap) (h : HaltCause) : (p.halted h).syncCnt = p.syncCnt := rfl
@[simp] theorem halted_dataCnt (p : Snap) (h : HaltCause) : (p.halted h).dataCnt = p.dataCnt := rfl
@[simp] theorem halted_emptyCnt (p : Snap) (h : HaltCause) : (p.halted h).emptyCnt = p.emptyCnt := rfl
@[simp] theorem halted_lastError (p : Snap) (h : HaltCause) : (p.halted h).lastError = haltResult h := rfl
@[simp] theorem halted_lastCorr (p : Snap) (h : HaltCause) : (p.halted h).lastCorr = p.lastCorr := rfl
@[simp] theorem halted_divState (p : Snap) (h : HaltCause) : (p.halted h).divState = p.divState := rfl
@[simp] theorem halted_degree (p : Snap) (h : HaltCause) : (p.halted h).degree = p.degree := rfl
@[simp] theorem halted_halt (p : Snap) (h : HaltCause) : (p.halted h).halt = h := rfl

/-! `tickStart` starts a tick. -/

@[simp] theorem tickStart_cfg : (s.tickStart).cfg = s.cfg := rfl
@[simp] theorem tickStart_eb : (s.tickStart).eb = s.eb := rfl
@[simp] theorem tickStart_live : (s.tickStart).live = s.live := rfl
@[simp] theorem tickStart_syncCnt : (s.tickStart).syncCnt = s.syncCnt := rfl
@[simp] theorem tickStart_dataCnt : (s.tickStart).dataCnt = s.dataCnt := rfl
@[simp] theorem tickStart_emptyCnt : (s.tickStart).emptyCnt = s.emptyCnt := rfl
@[simp] theorem tickStart_prevErr : (s.tickStart).prevErr = s.prevErr := rfl
@[simp] theorem tickStart_integ : (s.tickStart).integ = s.integ := rfl
@[simp] theorem tickStart_divState : (s.tickStart).divState = s.divState := rfl
@[simp] theorem tickStart_fcDegree : (s.tickStart).fcDegree = s.fcDegree := rfl
@[simp] theorem tickStart_lastCorr : (s.tickStart).lastCorr = s.lastCorr := rfl
@[simp] theorem tickStart_lastError : (s.tickStart).lastError = s.lastError := rfl
@[simp] theorem tickStart_halt : (s.tickStart).halt = s.halt := rfl
@[simp] theorem tickStart_snap : (s.tickStart).snap = s.snap := rfl
@[simp] theorem tickStart_boundary : (s.tickStart).boundary = s.boundary := rfl
@[simp] theorem tickStart_seq : (s.tickStart).seq = .t1 := rfl
@[simp] theorem tickStart_out : (s.tickStart).out = perLink s.cfg.degree fun _ => .sync := rfl
@[simp] theorem tickStart_rxm : (s.tickStart).rxm = s.rxm := rfl
@[simp] theorem tickStart_result : (s.tickStart).result = .ok := rfl
@[simp] theorem tickStart_ports : (s.tickStart).ports = s.ports := rfl
@[simp] theorem tickStart_outs : (s.tickStart).outs = Outs.nothing s.cfg.toRawConfig := rfl
@[simp] theorem tickStart_ret : (s.tickStart).ret = .none := rfl
@[simp] theorem tickStart_schedule : (s.tickStart).schedule = s.schedule := rfl

end Sys2Proof.Machine.State
end

