-- ==== Sys2Proof/Laws/Ops.lean ====
section
/-! SUPPORT. One lemma per shared operation that says what it can do; later proofs cite these and do
not unfold the operation. -/

namespace Sys2Proof.Machine

/-! ### Per-link arrays -/

@[simp] theorem length_perLink {α : Type} (n : Nat) (f : Nat → α) : (perLink n f).length = n := by
  simp [perLink]

theorem getElem?_perLink {α : Type} (n : Nat) (f : Nat → α) (i : Nat) :
    (perLink n f)[i]? = if i < n then some (f i) else none := by
  by_cases h : i < n <;> simp [perLink, h]

theorem getD_perLink {α : Type} (n : Nat) (f : Nat → α) (i : Nat) (d : α) :
    (perLink n f).getD i d = if i < n then f i else d := by
  rw [List.getD_eq_getElem?_getD, getElem?_perLink]
  split <;> rfl

theorem mem_perLink {α : Type} {n : Nat} {f : Nat → α} {x : α} :
    x ∈ perLink n f ↔ ∃ i < n, f i = x := by
  simp [perLink]

theorem perLink_const {α : Type} (n : Nat) (x : α) : perLink n (fun _ => x) = List.replicate n x := by
  simp [perLink]

/-- Reading an array back link by link gives the array. -/
theorem perLink_getD {α : Type} (l : List α) (d : α) : perLink l.length (fun i => l.getD i d) = l := by
  refine List.ext_getElem? fun i => ?_
  rw [getElem?_perLink]
  by_cases h : i < l.length
  · simp [h]
  · simp [h]

/-- Mapping an array is reading it link by link and applying the function. -/
theorem perLink_map_getD {α β : Type} (g : α → β) (l : List α) (d : α) :
    perLink l.length (fun i => g (l.getD i d)) = l.map g := by
  refine List.ext_getElem? fun i => ?_
  rw [getElem?_perLink]
  by_cases h : i < l.length
  · simp [h]
  · simp [h]

theorem getD_set {α : Type} (l : List α) (i j : Nat) (x d : α) (h : i < l.length) :
    (l.set i x).getD j d = if j = i then x else l.getD j d := by
  rw [List.getD_eq_getElem?_getD, List.getElem?_set]
  by_cases hij : i = j
  · subst hij; simp [h]
  · simp [hij, Ne.symm hij, List.getD_eq_getElem?_getD]

namespace State

theorem ebAt_setEb {s : State} {i : Nat} (q : List Message) (h : i < s.eb.length) (j : Nat) :
    (s.setEb i q).ebAt j = if j = i then q else s.ebAt j := getD_set _ _ _ _ _ h

@[simp] theorem rxmAt_setEb (s : State) (i : Nat) (q : List Message) (j : Nat) :
    (s.setEb i q).rxmAt j = s.rxmAt j := rfl

@[simp] theorem enabled_setEb (s : State) (i : Nat) (q : List Message) (j : Nat) :
    (s.setEb i q).enabled j = s.enabled j := rfl

theorem outAt_setOut {s : State} {i : Nat} (m : Message) (h : i < s.out.length) (j : Nat) :
    (s.setOut i m).outAt j = if j = i then m else s.outAt j := getD_set _ _ _ _ _ h

theorem ebAt_of_ge {s : State} {i : Nat} (h : s.eb.length ≤ i) : s.ebAt i = [] := by
  simp [ebAt, List.getElem?_eq_none h]

theorem ebAt_mem {s : State} {i : Nat} (h : i < s.eb.length) : s.ebAt i ∈ s.eb := by
  simp [ebAt, h]

theorem rxmAt_mem {s : State} {i : Nat} (h : i < s.rxm.length) : s.rxmAt i ∈ s.rxm := by
  simp [rxmAt, h]

/-- No link holds more than B Messages. -/
theorem LevelsOk.at {s : State} (h : s.LevelsOk) (i : Nat) : (s.ebAt i).length ≤ s.cfg.b := by
  by_cases hi : i < s.eb.length
  · exact h _ (ebAt_mem hi)
  · simp [ebAt_of_ge (Nat.le_of_not_lt hi)]

end State

/-! ### Fixed-point arithmetic -/

theorem fxMin_le_fxMax (c : RawConfig) : c.fxMin ≤ c.fxMax := by
  have h : (0 : Int) < 2 ^ (c.fxBits - 1) := by positivity
  simp only [RawConfig.fxMin, RawConfig.fxMax]
  omega

/-- Clamping gives an FX value. -/
theorem clampFx_isFx (c : RawConfig) (z : Int) : c.isFx (clampFx c z) := by
  have h := fxMin_le_fxMax c
  simp only [RawConfig.isFx, clampFx]
  split
  · omega
  · split <;> omega

/-- Clamping leaves an FX value as it is. -/
theorem clampFx_of_isFx {c : RawConfig} {z : Int} (h : c.isFx z) : clampFx c z = z := by
  have h1 : ¬ z < c.fxMin := by have := h.1; omega
  have h2 : ¬ c.fxMax < z := by have := h.2; omega
  simp [clampFx, h1, h2]

theorem clampFx_of_lt {c : RawConfig} {z : Int} (h : z < c.fxMin) : clampFx c z = c.fxMin := by
  simp [clampFx, h]

theorem clampFx_of_gt {c : RawConfig} {z : Int} (h : c.fxMax < z) : clampFx c z = c.fxMax := by
  have h1 := fxMin_le_fxMax c
  have h2 : ¬ z < c.fxMin := by omega
  simp [clampFx, h, h2]

/-- `fx_of_int` keeps the order of integers. -/
theorem fxOfInt_le {c : RawConfig} {m n : Int} (h : m ≤ n) : fxOfInt c m ≤ fxOfInt c n :=
  Int.mul_le_mul_of_nonneg_right h (by positivity)

/-- The candidate divider state lies within the integer limits (R170). -/
theorem fcCandidate_bounds (c : Config) (d corr : Fx) :
    fxOfInt c.toRawConfig c.divMin ≤ fcCandidate c.toRawConfig d corr ∧
      fcCandidate c.toRawConfig d corr ≤ fxOfInt c.toRawConfig c.divMax := by
  have h : fxOfInt c.toRawConfig c.divMin ≤ fxOfInt c.toRawConfig c.divMax := by
    refine fxOfInt_le ?_
    have := c.wf.2.2.2.2.2.2.2.2.2.2.2.1
    omega
  exact ⟨le_min (le_max_right _ _) h, min_le_right _ _⟩

/-- The floor of an FX value is the integer it lies above. -/
theorem fxFloor_spec (c : RawConfig) (a : Fx) :
    fxFloor c a * 2 ^ c.fxFrac ≤ a ∧ a < (fxFloor c a + 1) * 2 ^ c.fxFrac := by
  have h : (0 : Int) < 2 ^ c.fxFrac := by positivity
  exact ⟨Int.ediv_mul_le _ h.ne', Int.lt_ediv_add_one_mul_self _ h⟩

/-! ### Errors, halting -/

namespace State

theorem whenRunning_of_running {s : State} (h : s.halt = .none) (f : State → State) :
    s.whenRunning f = f s := by
  simp [whenRunning, h]

theorem whenRunning_of_halted {s : State} (h : s.halt ≠ .none) (f : State → State) :
    s.whenRunning f = s.answer (.result (haltResult s.halt)) := by
  simp [whenRunning, h]

/-! ### Pushing, filling -/

end State

/-- What a burst of pushes does to a buffer that holds at most B: it takes what there is room for, and
the flag says whether that was less than the whole burst (R102, R132, R133). -/
theorem pushAll_eq (c : RawConfig) (ms q : List Message) (h : q.length ≤ c.b) :
    pushAll c q ms = (q ++ ms.take (c.b - q.length), decide (c.b < q.length + ms.length)) := by
  induction ms generalizing q with
  | nil => simp [pushAll, h]
  | cons m ms ih =>
    by_cases hq : c.b ≤ q.length
    · have : c.b - q.length = 0 := by omega
      simp [pushAll, ebPush, hq, this]
      omega
    · have hlt : (q ++ [m]).length ≤ c.b := by simp; omega
      obtain ⟨k, hk⟩ : ∃ k, c.b - q.length = k + 1 := ⟨c.b - q.length - 1, by omega⟩
      have hk' : c.b - (q.length + 1) = k := by omega
      simp [pushAll, ebPush, hq, ih _ hlt, hk, hk']
      omega

namespace State

/-- Filling changes the buffers alone. -/
theorem fillLinks_frame (is : List Nat) (s : State) :
    (s.fillLinks is).1 = { s with eb := (s.fillLinks is).1.eb } := by
  induction is generalizing s with
  | nil => rfl
  | cons i is ih =>
    simp only [fillLinks]
    split
    · split
      · rw [ih]; rfl
      · rfl
    · exact ih s

theorem fillLinks_length (is : List Nat) (s : State) :
    (s.fillLinks is).1.eb.length = s.eb.length := by
  induction is generalizing s with
  | nil => rfl
  | cons i is ih =>
    simp only [fillLinks]
    split
    · split
      · rw [ih]; simp
      · simp
    · exact ih s

/-- A link that has room for its burst, or is disabled, is filled and the rest follow (R132). -/
theorem fillLinks_cons_room {s : State} {i : Nat} (is : List Nat)
    (h : s.enabled i = true → s.level i + (s.rxmAt i).length ≤ s.cfg.b) :
    s.fillLinks (i :: is) =
      (if s.enabled i then s.setEb i (s.ebAt i ++ s.rxmAt i) else s).fillLinks is := by
  by_cases he : s.enabled i = true
  · have h1 := h he
    have hq : (s.ebAt i).length ≤ s.cfg.b := by simp only [level, ebLevel] at h1; omega
    have h2 : ¬ s.cfg.b < (s.ebAt i).length + (s.rxmAt i).length := by
      simp only [level, ebLevel] at h1; omega
    have h3 : (s.rxmAt i).take (s.cfg.b - (s.ebAt i).length) = s.rxmAt i := by
      refine List.take_of_length_le ?_
      simp only [level, ebLevel] at h1; omega
    simp only [fillLinks, he, if_true]
    rw [pushAll_eq _ _ _ hq]
    simp [h2, h3]
  · simp [fillLinks, he]

/-- A link that has no room stops the fill with its buffer full (R133). -/
theorem fillLinks_cons_full {s : State} {i : Nat} (is : List Nat) (he : s.enabled i = true)
    (hq : s.level i ≤ s.cfg.b) (h : s.cfg.b < s.level i + (s.rxmAt i).length) :
    s.fillLinks (i :: is) =
      (s.setEb i (s.ebAt i ++ (s.rxmAt i).take (s.cfg.b - s.level i)), true) := by
  simp only [level, ebLevel] at *
  simp only [fillLinks, he, if_true]
  rw [pushAll_eq _ _ _ hq]
  simp [h]

/-- With room on every enabled link of the list, the fill succeeds and appends each burst (R132). -/
theorem fillLinks_room (is : List Nat) (s : State) (hnd : is.Nodup)
    (hlen : ∀ i ∈ is, i < s.eb.length)
    (h : ∀ i ∈ is, s.enabled i = true → s.level i + (s.rxmAt i).length ≤ s.cfg.b) :
    (s.fillLinks is).2 = false ∧
      ∀ j, (s.fillLinks is).1.ebAt j =
        if j ∈ is ∧ s.enabled j = true then s.ebAt j ++ s.rxmAt j else s.ebAt j := by
  induction is generalizing s with
  | nil => simp [fillLinks]
  | cons i is ih =>
    rw [fillLinks_cons_room is (h i (by simp))]
    obtain ⟨hi, hnd⟩ := List.nodup_cons.mp hnd
    by_cases he : s.enabled i = true
    · simp only [he, if_true]
      have hb : ∀ j, (s.setEb i (s.ebAt i ++ s.rxmAt i)).ebAt j =
          if j = i then s.ebAt i ++ s.rxmAt i else s.ebAt j :=
        ebAt_setEb _ (hlen i (by simp))
      obtain ⟨h1, h2⟩ := ih (s.setEb i (s.ebAt i ++ s.rxmAt i)) hnd
        (fun j hj => by simpa using hlen j (by simp [hj]))
        (fun j hj hej => by
          have hne : j ≠ i := fun e => hi (e ▸ hj)
          have := h j (by simp [hj]) hej
          simpa [level, hb, hne] using this)
      refine ⟨h1, fun j => ?_⟩
      rw [h2, hb]
      by_cases hji : j = i
      · subst hji
        simp [hi, he]
      · simp [hji]
    · simp only [he]
      obtain ⟨h1, h2⟩ := ih s hnd (fun j hj => hlen j (by simp [hj])) (fun j hj => h j (by simp [hj]))
      refine ⟨h1, fun j => ?_⟩
      rw [if_neg (by simp), h2]
      by_cases hji : j = i
      · subst hji; simp [hi, he]
      · simp [hji]

/-- The fill up to the first link that has no room (R133). -/
theorem fillLinks_full (pre post : List Nat) (k : Nat) (s : State) (hnd : (pre ++ k :: post).Nodup)
    (hlen : ∀ i ∈ pre, i < s.eb.length) (hk : k < s.eb.length)
    (h : ∀ i ∈ pre, s.enabled i = true → s.level i + (s.rxmAt i).length ≤ s.cfg.b)
    (he : s.enabled k = true) (hq : s.level k ≤ s.cfg.b)
    (hfull : s.cfg.b < s.level k + (s.rxmAt k).length) :
    (s.fillLinks (pre ++ k :: post)).2 = true ∧
      ∀ j, (s.fillLinks (pre ++ k :: post)).1.ebAt j =
        if j = k then s.ebAt k ++ (s.rxmAt k).take (s.cfg.b - s.level k)
        else if j ∈ pre ∧ s.enabled j = true then s.ebAt j ++ s.rxmAt j else s.ebAt j := by
  induction pre generalizing s with
  | nil =>
    rw [List.nil_append, fillLinks_cons_full post he hq hfull]
    refine ⟨rfl, fun j => ?_⟩
    simp [ebAt_setEb _ hk]
  | cons i pre ih =>
    rw [List.cons_append, fillLinks_cons_room _ (h i (by simp))]
    rw [List.cons_append] at hnd
    obtain ⟨hi, hnd⟩ := List.nodup_cons.mp hnd
    have hik : k ≠ i := fun e => hi (by simp [e])
    have hip : i ∉ pre := fun e => hi (by simp [e])
    by_cases hei : s.enabled i = true
    · simp only [hei, if_true]
      have hb : ∀ j, (s.setEb i (s.ebAt i ++ s.rxmAt i)).ebAt j =
          if j = i then s.ebAt i ++ s.rxmAt i else s.ebAt j :=
        ebAt_setEb _ (hlen i (by simp))
      obtain ⟨h1, h2⟩ := ih (s.setEb i (s.ebAt i ++ s.rxmAt i)) hnd
        (fun j hj => by simpa using hlen j (by simp [hj])) (by simpa using hk)
        (fun j hj hej => by
          have hne : j ≠ i := fun e => hip (e ▸ hj)
          have := h j (by simp [hj]) hej
          simpa [level, hb, hne] using this)
        he (by simpa [level, hb, hik] using hq) (by simpa [level, hb, hik] using hfull)
      refine ⟨h1, fun j => ?_⟩
      rw [h2]
      simp only [level, hb, rxmAt_setEb, enabled_setEb, hik, if_false, setEb_cfg]
      by_cases hji : j = i
      · subst hji; simp [hip, hei, Ne.symm hik]
      · simp [hji]
    · simp only [hei]
      obtain ⟨h1, h2⟩ := ih s hnd (fun j hj => hlen j (by simp [hj])) hk
        (fun j hj => h j (by simp [hj])) he hq hfull
      refine ⟨h1, fun j => ?_⟩
      rw [if_neg (by simp), h2]
      by_cases hji : j = i
      · subst hji; simp [hip, hei]
      · simp [hji]

end State

/-! ### PID and Frequency Controller -/

/-- The error PID_RUN goes on with is an FX value. -/
theorem pidError_isFx {c : RawConfig} {sp mv e : Fx} (h : pidError c sp mv = some e) : c.isFx e := by
  unfold pidError at h
  split at h
  · rename_i hz; cases h; exact hz
  · split at h
    · cases h; exact clampFx_isFx _ _
    · cases h

namespace State

/-- PID_RUN either fails and changes nothing (R156) or moves the PID state by its error. -/
theorem pidRun_cases (s : State) (sp mv : Fx) :
    (pidError s.cfg.toRawConfig sp mv = none ∧ s.pidRun sp mv = (none, s)) ∨
    ∃ e, pidError s.cfg.toRawConfig sp mv = some e ∧
      s.pidRun sp mv = (some (s.pidValue e), s.pidMove e) := by
  cases h : pidError s.cfg.toRawConfig sp mv with
  | none => exact .inl ⟨rfl, by simp [pidRun, h]⟩
  | some e => exact .inr ⟨e, rfl, by simp [pidRun, h]⟩

/-- In range of FC_DEGREE the setpoint is the target as FX (R169, R11). -/
theorem fcSetpoint_eq (c : Config) {degree : Nat} (h : degree ≤ c.degree) :
    fcSetpoint c.toRawConfig degree = fxOfInt c.toRawConfig (fcTarget c.toRawConfig degree) := by
  have hb : c.degree * c.b < 2 ^ (c.fxBits - c.fxFrac - 1) := c.wf.2.2.2.2.2.2.2.2.2.2.2.2.2
  have hm : degree * c.b ≤ c.degree * c.b := Nat.mul_le_mul_right _ h
  exact if_pos (by unfold fcTarget; omega)

/-- FC_RUN either fails in the PID (R175) or applies the candidate its correction gives (R170 to
R176). -/
theorem fcRun_cases (s : State) (levels : List Nat) :
    s.fcRun levels = (false, s.setActw none) ∨
    ∃ e, s.cfg.isFx e ∧ s.fcRun levels =
      ((s.pidMove e).setLastCorr (s.pidValue e)).fcApply
        (fcCandidate s.cfg.toRawConfig s.divState (s.pidValue e)) := by
  rcases pidRun_cases s (fcSetpoint s.cfg.toRawConfig s.fcDegree)
    (fxOfInt s.cfg.toRawConfig (fcActual levels)) with ⟨-, h⟩ | ⟨e, he, h⟩
  · exact .inl (by simp [fcRun, h])
  · exact .inr ⟨e, pidError_isFx he, by simp [fcRun, h]⟩

/-- The three answers of the actuator (R172 to R174). -/
theorem fcApply_cases (s : State) (cand : Fx) :
    (s.ports.act = .busy ∧ s.fcApply cand = (true, (s.setDivState cand).setActw none)) ∨
    (s.ports.act = .ready ∧ s.fcApply cand =
      (true, (s.setDivState cand).setActw (some (fxFloor s.cfg.toRawConfig cand)))) ∨
    (s.ports.act = .reject ∧ s.fcApply cand =
      (false, s.setActw (some (fxFloor s.cfg.toRawConfig cand)))) := by
  cases h : s.ports.act <;> simp [fcApply, h]

/-- The number of live links is at most DEGREE (R139). -/
theorem liveCount_le (s : State) : s.liveCount ≤ s.cfg.degree := by
  simpa [liveCount, links] using List.countP_le_length (p := fun i => s.enabled i && s.active i)
    (l := List.range s.cfg.degree)

end State

/-! ### Dispatch -/

/-- Every instruction has a next state in every state: the block has no trap that stops it (R185,
R194). -/
theorem exec_next (i : Instr) (s : State) : ∃ t, exec i s = .next t := by
  cases i <;> exact ⟨_, rfl⟩

end Sys2Proof.Machine
end

