-- ==== Sys2Proof/Laws/Exec.lean ====
section
/-! SUPPORT. What running each instruction that a halt silences comes to in a running block, and in a
halted one. The other instructions do the same in both, and their meaning is one `rfl` away. -/

namespace Sys2Proof.Machine

variable {s : State}

theorem exec_userSync_running (h : s.halt = .none) :
    exec .userSync s = .next (s.rejectSync.answer .none) :=
  congrArg Host.Outcome.next (State.whenRunning_of_running h _)

theorem exec_userBadnbr_running (h : s.halt = .none) (n p : Nat) (tag : Bool) :
    exec (.userBadnbr n p tag) s = .next (s.rejectNeighbor.answer .none) :=
  congrArg Host.Outcome.next (State.whenRunning_of_running h _)

theorem exec_userData_running (h : s.halt = .none) (n p : Nat) (tag : Bool) :
    exec (.userData n p tag) s = .next ((s.stage n p).answer .none) :=
  congrArg Host.Outcome.next (State.whenRunning_of_running h _)

theorem exec_syncMessageFromUserCode_running (h : s.halt = .none) :
    exec .syncMessageFromUserCode s = .next ((s.raise .syncMessageFromUserCode).answer (.result .syncMessageFromUserCode)) :=
  congrArg Host.Outcome.next (State.whenRunning_of_running h _)

theorem exec_invalidNeighbor_running (h : s.halt = .none) :
    exec .invalidNeighbor s = .next ((s.raise .invalidNeighbor).answer (.result .invalidNeighbor)) :=
  congrArg Host.Outcome.next (State.whenRunning_of_running h _)

theorem exec_frequencyControllerError_running (h : s.halt = .none) :
    exec .frequencyControllerError s = .next ((s.raise .frequencyControllerError).answer (.result .frequencyControllerError)) :=
  congrArg Host.Outcome.next (State.whenRunning_of_running h _)

theorem exec_tideFifoFull_running (h : s.halt = .none) :
    exec .tideFifoFull s = .next (s.raiseFatal .tideFifoFull) :=
  congrArg Host.Outcome.next (State.whenRunning_of_running h _)

theorem exec_tickOverrun_running (h : s.halt = .none) :
    exec .tickOverrun s = .next (s.raiseFatal .tickOverrun) :=
  congrArg Host.Outcome.next (State.whenRunning_of_running h _)

theorem exec_ebPush_running (h : s.halt = .none) (i : Nat) (m : Message) :
    exec (.ebPush i m) s = .next (s.pushLink i m) :=
  congrArg Host.Outcome.next (State.whenRunning_of_running h _)

theorem exec_ebPop_running (h : s.halt = .none) (i : Nat) :
    exec (.ebPop i) s = .next (s.popLink i) :=
  congrArg Host.Outcome.next (State.whenRunning_of_running h _)

theorem exec_ltWrite_running (h : s.halt = .none) (ws : List Word) :
    exec (.ltWrite ws) s = .next ((s.linkWrite ws).answer .none) :=
  congrArg Host.Outcome.next (State.whenRunning_of_running h _)

theorem exec_ltRead_running (h : s.halt = .none) :
    exec .ltRead s = .next (s.ltRead.2.answer (.bursts s.ltRead.1)) :=
  congrArg Host.Outcome.next (State.whenRunning_of_running h _)

theorem exec_tickT1_running (h : s.halt = .none) :
    exec .tickT1 s = .next (s.t1) :=
  congrArg Host.Outcome.next (State.whenRunning_of_running h _)

theorem exec_tickT2_running (h : s.halt = .none) :
    exec .tickT2 s = .next (s.t2) :=
  congrArg Host.Outcome.next (State.whenRunning_of_running h _)

theorem exec_tickT3_running (h : s.halt = .none) :
    exec .tickT3 s = .next (s.t3) :=
  congrArg Host.Outcome.next (State.whenRunning_of_running h _)

theorem exec_tickT4_running (h : s.halt = .none) :
    exec .tickT4 s = .next (s.t4) :=
  congrArg Host.Outcome.next (State.whenRunning_of_running h _)

theorem exec_tickT5_running (h : s.halt = .none) :
    exec .tickT5 s = .next (s.t5) :=
  congrArg Host.Outcome.next (State.whenRunning_of_running h _)

theorem exec_tickT6_running (h : s.halt = .none) :
    exec .tickT6 s = .next (s.t6) :=
  congrArg Host.Outcome.next (State.whenRunning_of_running h _)

theorem exec_tickT7_running (h : s.halt = .none) :
    exec .tickT7 s = .next (s.t7) :=
  congrArg Host.Outcome.next (State.whenRunning_of_running h _)

theorem exec_pidRun_running (h : s.halt = .none) (sp mv : Fx) :
    exec (.pidRun sp mv) s = .next ((s.pidRun sp mv).2.answer (.correction (s.pidRun sp mv).1)) :=
  congrArg Host.Outcome.next (State.whenRunning_of_running h _)

theorem exec_fcSetDegree_running (h : s.halt = .none) (d : Nat) :
    exec (.fcSetDegree d) s = .next ((s.fcSetDegree d).answer .none) :=
  congrArg Host.Outcome.next (State.whenRunning_of_running h _)

theorem exec_fcRun_running (h : s.halt = .none) (ls : List Nat) :
    exec (.fcRun ls) s = .next ((s.fcRun ls).2.answer (.fc (s.fcRun ls).1)) :=
  congrArg Host.Outcome.next (State.whenRunning_of_running h _)

/-- The instructions that a halt silences: all that would change a register but TICK and RESET. -/
def silenced : Instr → Bool
  | .userSync => true
  | .userBadnbr _ _ _ => true
  | .userData _ _ _ => true
  | .syncMessageFromUserCode => true
  | .invalidNeighbor => true
  | .frequencyControllerError => true
  | .tideFifoFull => true
  | .tickOverrun => true
  | .ebPush _ _ => true
  | .ebPop _ => true
  | .ltWrite _ => true
  | .ltRead => true
  | .tickT1 => true
  | .tickT2 => true
  | .tickT3 => true
  | .tickT4 => true
  | .tickT5 => true
  | .tickT6 => true
  | .tickT7 => true
  | .pidRun _ _ => true
  | .fcSetDegree _ => true
  | .fcRun _ => true
  | _ => false

/-- In a halted block a silenced instruction answers `Err(HALT)` and changes nothing (R29, R197). -/
theorem exec_silenced {i : Instr} (hi : silenced i = true) (h : s.halt ≠ .none) :
    exec i s = .next (s.answer (.result (haltResult s.halt))) := by
  cases i
  all_goals first
    | exact absurd hi Bool.false_ne_true
    | exact congrArg Host.Outcome.next (State.whenRunning_of_halted h _)

end Sys2Proof.Machine
end

