-- ==== Sys2Proof/Laws/PerInstr.lean ====
section
/-! SUPPORT. Facts stated of every instruction, one lemma per constructor: the bits of an encoded
instruction have the width of its place (R70, R78, R80), and an instruction has bits exactly if it
has a place for them (R84). -/

namespace Sys2Proof.Laws

/-- How many bits a pattern has at a place. -/
def placeBits (c : RawConfig) : Place → Nat
  | .wire => c.wordBits
  | .producer => c.wordBits
  | .resultCode => 8
  | .haltCause => 2

namespace EncodeFits

/-- The encoding of a well-formed instruction has the width of its place. -/
def Statement (i : Instr) : Prop :=
  ∀ c : RawConfig, i.wellFormed c = true →
    match encode c i, i.place with
    | some w, some p => w < 2 ^ placeBits c p
    | none, none => True
    | _, _ => False

theorem one_lt (c : RawConfig) : 1 < 2 ^ c.wordBits :=
  Nat.one_lt_two_pow (by simp [RawConfig.wordBits])

theorem sync : Statement .sync := fun c _ => one_lt c
theorem data (n p : Nat) : Statement (.data n p) := fun c _ => packTagged_lt c n p false
theorem dataNc (n p : Nat) : Statement (.dataNc n p) := fun c _ => packTagged_lt c n p true
theorem userSync : Statement .userSync := fun c _ => one_lt c
theorem userBadnbr (n p : Nat) (t : Bool) : Statement (.userBadnbr n p t) :=
  fun c _ => packTagged_lt c n p t
theorem userData (n p : Nat) (t : Bool) : Statement (.userData n p t) :=
  fun c _ => packTagged_lt c n p t
theorem ok : Statement .ok := fun _ _ => by simp [encode, Instr.place, placeBits]
theorem syncMessageFromUserCode : Statement .syncMessageFromUserCode := fun _ _ => by simp [encode, Instr.place, placeBits]
theorem invalidNeighbor : Statement .invalidNeighbor := fun _ _ => by simp [encode, Instr.place, placeBits]
theorem tideFifoFull : Statement .tideFifoFull := fun _ _ => by simp [encode, Instr.place, placeBits]
theorem frequencyControllerError : Statement .frequencyControllerError := fun _ _ => by simp [encode, Instr.place, placeBits]
theorem decodeError : Statement .decodeError := fun _ _ => by simp [encode, Instr.place, placeBits]
theorem tickOverrun : Statement .tickOverrun := fun _ _ => by simp [encode, Instr.place, placeBits]
theorem resultReserved (code : Nat) : Statement (.resultReserved code) := fun _ h => by
  simp only [Instr.wellFormed, Bool.and_eq_true, decide_eq_true_eq] at h
  exact h.2
theorem haltNone : Statement .haltNone := fun _ _ => by simp [encode, Instr.place, placeBits]
theorem haltTideFifoFull : Statement .haltTideFifoFull := fun _ _ => by simp [encode, Instr.place, placeBits]
theorem haltTickOverrun : Statement .haltTickOverrun := fun _ _ => by simp [encode, Instr.place, placeBits]
theorem encodeSync : Statement .encodeSync := fun _ _ => trivial
theorem encodeData (n p : Nat) : Statement (.encodeData n p) := fun _ _ => trivial
theorem decode (w : Word) : Statement (.decode w) := fun _ _ => trivial
theorem ebNew : Statement .ebNew := fun _ _ => trivial
theorem ebPush (i : Nat) (m : Message) : Statement (.ebPush i m) := fun _ _ => trivial
theorem ebPop (i : Nat) : Statement (.ebPop i) := fun _ _ => trivial
theorem ebLevel (i : Nat) : Statement (.ebLevel i) := fun _ _ => trivial
theorem ltWrite (ws : List Word) : Statement (.ltWrite ws) := fun _ _ => trivial
theorem ltRead : Statement .ltRead := fun _ _ => trivial
theorem ltActive : Statement .ltActive := fun _ _ => trivial
theorem tick : Statement .tick := fun _ _ => trivial
theorem tickT1 : Statement .tickT1 := fun _ _ => trivial
theorem tickT2 : Statement .tickT2 := fun _ _ => trivial
theorem tickT3 : Statement .tickT3 := fun _ _ => trivial
theorem tickT4 : Statement .tickT4 := fun _ _ => trivial
theorem tickT5 : Statement .tickT5 := fun _ _ => trivial
theorem tickT6 : Statement .tickT6 := fun _ _ => trivial
theorem tickT7 : Statement .tickT7 := fun _ _ => trivial
theorem pidRun (sp mv : Fx) : Statement (.pidRun sp mv) := fun _ _ => trivial
theorem fcSetDegree (d : Nat) : Statement (.fcSetDegree d) := fun _ _ => trivial
theorem fcRun (ls : List Nat) : Statement (.fcRun ls) := fun _ _ => trivial
theorem fcDebug : Statement .fcDebug := fun _ _ => trivial
theorem dbgRead : Statement .dbgRead := fun _ _ => trivial
theorem reset : Statement .reset := fun _ _ => trivial

end EncodeFits

end Sys2Proof.Laws
end

