-- ==== Sys2Proof/Laws/Tick.lean ====
section
/-! SUPPORT. What each step of the tick can do, said once, and how the steps add up to the tick. -/

namespace Sys2Proof.Machine

namespace State

/-! ### One step at a time -/

/-- T1 changes the mailbox, the outbound slots and the result, and goes to T2. -/
theorem t1_frame (s : State) :
    s.t1 = { s with
      ports := { s.ports with user := none }, out := s.t1.out, result := s.t1.result,
      seq := .t2, ret := .none } := by
  unfold t1
  cases h : s.ports.user with
  | none => simp only [userRead, h]; rfl
  | some w =>
    simp only [userRead, h, ingest]
    cases decodeMessage s.cfg.toRawConfig w with
    | sync => rfl
    | data n p =>
      simp only
      split <;> rfl

/-- T1 keeps the number of outbound slots. -/
theorem t1_out_length (s : State) : s.t1.out.length = s.out.length := by
  unfold t1
  cases h : s.ports.user with
  | none => simp only [userRead, h]; rfl
  | some w =>
    simp only [userRead, h, ingest]
    cases decodeMessage s.cfg.toRawConfig w with
    | sync => rfl
    | data n p =>
      simp only
      split
      · rfl
      · simp [stage, setOut]

/-- T4 changes the buffers and goes on to T5, or halts the block. -/
theorem t4_cases (s : State) :
    ∃ eb, eb.length = s.eb.length ∧
      (s.t4 = { s with eb := eb, seq := .t5, ret := .none } ∨
        s.t4 = ({ s with eb := eb } : State).raiseFatal .tideFifoFull) := by
  have h := fillLinks_frame s.links s
  have hl := fillLinks_length s.links s
  unfold t4
  rcases hf : s.fillLinks s.links with ⟨u, b⟩
  rw [hf] at h hl
  simp only at h hl
  refine ⟨u.eb, hl, ?_⟩
  cases b
  · left; simp only; rw [h]; rfl
  · right; simp only; rw [h]

/-- FC_RUN changes the controller registers and the actuator output alone. -/
theorem fcRun_frame (s : State) (ls : List Nat) :
    (s.fcRun ls).2 = { s with
      prevErr := (s.fcRun ls).2.prevErr, integ := (s.fcRun ls).2.integ,
      divState := (s.fcRun ls).2.divState, lastCorr := (s.fcRun ls).2.lastCorr,
      outs := { s.outs with actw := (s.fcRun ls).2.outs.actw } } := by
  rcases s.fcRun_cases ls with h | ⟨e, -, h⟩
  · rw [h]; rfl
  · rw [h]
    rcases fcApply_cases ((s.pidMove e).setLastCorr (s.pidValue e))
      (fcCandidate s.cfg.toRawConfig s.divState (s.pidValue e)) with ⟨-, h⟩ | ⟨-, h⟩ | ⟨-, h⟩ <;>
      rw [h] <;> rfl

/-- The end of a tick, field by field (R141). -/
theorem complete_eq (s : State) :
    s.complete = { s with
      lastError := if s.result = .ok then s.lastError else s.result
      snap := { s.snap with
        lastError := if s.result = .ok then s.snap.lastError else s.result }
      boundary := { s.snap with
        lastError := if s.result = .ok then s.snap.lastError else s.result }
      seq := .idle
      ret := .result s.result } := by
  unfold complete
  by_cases h : s.result = .ok
  · simp only [h, if_true]; rw [← h]; rfl
  · simp only [h, if_false]; rfl

/-- T7's result: FC_RUN's failure, unless an earlier error stands (R140, R190). -/
def t7Result (s : State) (fcOk : Bool) : ResultCode :=
  if fcOk then s.result
  else if s.result = .ok then .frequencyControllerError else s.result

/-- The snapshot T7 leaves: the controller's fields, and the tick's error if there is one (R140, R141). -/
def t7Snap (s : State) : Snap :=
  { s.snap with
    lastError := if s.t7Result ((s.fcSetDegree s.liveCount).fcRun s.levels).1 = .ok
      then s.snap.lastError else s.t7Result ((s.fcSetDegree s.liveCount).fcRun s.levels).1
    lastCorr := ((s.fcSetDegree s.liveCount).fcRun s.levels).2.lastCorr
    divState := ((s.fcSetDegree s.liveCount).fcRun s.levels).2.divState
    degree := s.liveCount }

/-- T7 up to the end of the tick, in terms of what FC_RUN leaves on all levels (R139, R140). -/
theorem correct_eq (s : State) :
    s.correct = ({ ((s.fcSetDegree s.liveCount).fcRun s.levels).2 with
      result := s.t7Result ((s.fcSetDegree s.liveCount).fcRun s.levels).1 } : State).snapshotFc := by
  have hfr := (s.fcSetDegree s.liveCount).fcRun_frame s.levels
  unfold correct
  generalize (s.fcSetDegree s.liveCount).fcRun s.levels = f at hfr ⊢
  rcases f with ⟨b, u⟩
  simp only at hfr ⊢
  have hres : u.result = s.result := by rw [hfr]; rfl
  cases b
  · simp only [raise, hres]; rfl
  · simp only [t7Result, ← hres]; rfl

/-- T7, field by field (R139 to R141). -/
theorem t7_eq (s : State) :
    s.t7 = { s with
      fcDegree := s.liveCount
      prevErr := ((s.fcSetDegree s.liveCount).fcRun s.levels).2.prevErr
      integ := ((s.fcSetDegree s.liveCount).fcRun s.levels).2.integ
      divState := ((s.fcSetDegree s.liveCount).fcRun s.levels).2.divState
      lastCorr := ((s.fcSetDegree s.liveCount).fcRun s.levels).2.lastCorr
      outs := { s.outs with actw := ((s.fcSetDegree s.liveCount).fcRun s.levels).2.outs.actw }
      result := s.t7Result ((s.fcSetDegree s.liveCount).fcRun s.levels).1
      lastError := if s.t7Result ((s.fcSetDegree s.liveCount).fcRun s.levels).1 = .ok
        then s.lastError else s.t7Result ((s.fcSetDegree s.liveCount).fcRun s.levels).1
      snap := s.t7Snap
      boundary := s.t7Snap
      seq := .idle
      ret := .result (s.t7Result ((s.fcSetDegree s.liveCount).fcRun s.levels).1) } := by
  have hfr := (s.fcSetDegree s.liveCount).fcRun_frame s.levels
  rw [t7, complete_eq, correct_eq, t7Snap]
  generalize s.t7Result ((s.fcSetDegree s.liveCount).fcRun s.levels).1 = r
  generalize (s.fcSetDegree s.liveCount).fcRun s.levels = f at hfr ⊢
  rcases f with ⟨b, u⟩
  simp only at hfr ⊢
  rw [hfr]
  rfl

/-- All levels, link by link, are the lengths of the buffers (R140). -/
theorem levels_eq {s : State} (hs : s.ShapeOk) : s.levels = s.eb.map List.length := by
  rw [← perLink_map_getD List.length s.eb [], hs.eb]
  rfl

/-! ### What every step of the tick keeps -/

@[simp] theorem t1_cfg (s : State) : s.t1.cfg = s.cfg := by rw [t1_frame]
@[simp] theorem t2_cfg (s : State) : s.t2.cfg = s.cfg := rfl
@[simp] theorem t3_cfg (s : State) : s.t3.cfg = s.cfg := rfl
@[simp] theorem t4_cfg (s : State) : s.t4.cfg = s.cfg := by
  obtain ⟨_, -, h | h⟩ := t4_cases s <;> rw [h]
  rfl
@[simp] theorem t5_cfg (s : State) : s.t5.cfg = s.cfg := rfl
@[simp] theorem t6_cfg (s : State) : s.t6.cfg = s.cfg := rfl
@[simp] theorem t7_cfg (s : State) : s.t7.cfg = s.cfg := by rw [t7_eq]
@[simp] theorem t1_halt (s : State) : s.t1.halt = s.halt := by rw [t1_frame]
@[simp] theorem t2_halt (s : State) : s.t2.halt = s.halt := rfl
@[simp] theorem t3_halt (s : State) : s.t3.halt = s.halt := rfl
@[simp] theorem t5_halt (s : State) : s.t5.halt = s.halt := rfl
@[simp] theorem t6_halt (s : State) : s.t6.halt = s.halt := rfl
@[simp] theorem t7_halt (s : State) : s.t7.halt = s.halt := by rw [t7_eq]
@[simp] theorem t1_schedule (s : State) : s.t1.schedule = s.schedule := by rw [t1_frame]
@[simp] theorem t2_schedule (s : State) : s.t2.schedule = s.schedule := rfl
@[simp] theorem t3_schedule (s : State) : s.t3.schedule = s.schedule := rfl
@[simp] theorem t4_schedule (s : State) : s.t4.schedule = s.schedule := by
  obtain ⟨_, -, h | h⟩ := t4_cases s <;> rw [h]
  rfl
@[simp] theorem t5_schedule (s : State) : s.t5.schedule = s.schedule := rfl
@[simp] theorem t6_schedule (s : State) : s.t6.schedule = s.schedule := rfl
@[simp] theorem t7_schedule (s : State) : s.t7.schedule = s.schedule := by rw [t7_eq]

@[simp] theorem t1_seq (s : State) : s.t1.seq = .t2 := by rw [t1_frame]
@[simp] theorem t2_seq (s : State) : s.t2.seq = .t3 := rfl
@[simp] theorem t3_seq (s : State) : s.t3.seq = .t4 := rfl
@[simp] theorem t5_seq (s : State) : s.t5.seq = .t6 := rfl
@[simp] theorem t6_seq (s : State) : s.t6.seq = .t7 := rfl
@[simp] theorem t7_seq (s : State) : s.t7.seq = .idle := by rw [t7_eq]

/-! ### The whole tick -/

/-- The seven steps either all run, or end with T4's halt (R133). -/
theorem sevenSteps_cases {s : State} (h : s.halt = .none) :
    (s.t1.t2.t3.t4.halt = .none ∧ s.sevenSteps = s.t1.t2.t3.t4.t5.t6.t7) ∨
    (s.t1.t2.t3.t4.halt = .tideFifoFull ∧ s.t1.t2.t3.t4.seq = .idle ∧
      s.sevenSteps = s.t1.t2.t3.t4) := by
  obtain ⟨eb, -, h4 | h4⟩ := t4_cases s.t1.t2.t3
  · have h5 : s.t1.t2.t3.t4.halt = .none := by rw [h4]; simpa using h
    exact .inl ⟨h5, if_pos h5⟩
  · have h5 : s.t1.t2.t3.t4.halt = .tideFifoFull := by rw [h4]; rfl
    exact .inr ⟨h5, by rw [h4]; rfl, if_neg (by rw [h5]; decide)⟩

@[simp] theorem sevenSteps_cfg (s : State) : s.sevenSteps.cfg = s.cfg := by
  by_cases h : s.t1.t2.t3.t4.halt = .none
  · rw [show s.sevenSteps = s.t1.t2.t3.t4.t5.t6.t7 from if_pos h]; simp
  · rw [show s.sevenSteps = s.t1.t2.t3.t4 from if_neg h]; simp

@[simp] theorem sevenSteps_schedule (s : State) : s.sevenSteps.schedule = s.schedule := by
  by_cases h : s.t1.t2.t3.t4.halt = .none
  · rw [show s.sevenSteps = s.t1.t2.t3.t4.t5.t6.t7 from if_pos h]; simp
  · rw [show s.sevenSteps = s.t1.t2.t3.t4 from if_neg h]; simp

/-- A tick always ends between ticks (R199). -/
theorem sevenSteps_seq {s : State} (h : s.halt = .none) : s.sevenSteps.seq = .idle := by
  rcases sevenSteps_cases h with ⟨-, h7⟩ | ⟨-, hq, h7⟩
  · rw [h7, t7_seq]
  · rw [h7, hq]

theorem tick_running {s : State} (h : s.halt = .none) (hq : s.seq = .idle) :
    exec .tick s = .next s.tickStart.sevenSteps := by
  simp only [exec, execTick, tick, h, hq, if_true]

/-- The state after T1, T2 and T3 of a tick, field by field. -/
theorem threeSteps_eq (s : State) :
    s.tickStart.t1.t2.t3 = { s with
      ports := { s.ports with
        user := none, rx := perLink s.cfg.degree fun i => (s.ports.rx.getD i []).drop s.cfg.k }
      outs := { Outs.nothing s.cfg.toRawConfig with
        tx := some (perLink s.cfg.degree fun i =>
          encodeMessage s.cfg.toRawConfig (s.tickStart.t1.outAt i)) }
      live := perLink s.cfg.degree fun i =>
        nextLive s.cfg.toRawConfig (s.liveAt i) ((perLink s.cfg.degree s.burst).getD i []).length
      out := s.tickStart.t1.out
      result := s.tickStart.t1.result
      rxm := perLink s.cfg.degree s.received
      syncCnt := perLink s.cfg.degree fun i =>
        countUp s.cfg.toRawConfig (s.syncCntAt i) (syncCount (s.received i))
      dataCnt := perLink s.cfg.degree fun i =>
        countUp s.cfg.toRawConfig (s.dataCntAt i) (dataCount (s.received i))
      seq := .t4
      ret := .none } := by
  obtain ⟨o, r, f⟩ : ∃ o r, s.tickStart.t1 = { s.tickStart with
      ports := { s.ports with user := none }, out := o, result := r, seq := .t2, ret := .none } :=
    ⟨_, _, t1_frame s.tickStart⟩
  generalize s.tickStart.t1 = u at f ⊢
  subst f
  simp only [t3, t2, linkWrite, goto, answer, ltRead, linkRead, updateLive, tickStart]
  rfl

end State

/-- One more step of a run that has a next state. -/
theorem core_run_succ {s t : State} (k : Nat) (h : step s = .next t) :
    Sys2Proof.core.run (k + 1) s = Sys2Proof.core.run k t := by
  have h' : Sys2Proof.core.step s = .next t := h
  simp only [Host.Core.run, h']

end Sys2Proof.Machine
end

