-- ==== Sys2Proof/Laws/Step.lean ====
section
/-! SUPPORT. Everything one `step` can do, said once. -/

namespace Sys2Proof.Machine

/-- With no event to come, a step is the step of the tick that `STEP` names (R22). -/
theorem step_due {s : State} {i : Instr} (h : s.schedule = []) (hd : dueInstr s.seq = some i) :
    step s = exec i s := by
  simp [step, h, engine, hd]

/-- With no event to come and no tick in progress, the block waits (R206). -/
theorem step_idle {s : State} (h : s.schedule = []) (hq : s.seq = .idle) : step s = .next s := by
  simp [step, h, engine, hq, dueInstr]

/-- A step of the tick that `STEP` names has no operand and is in order. -/
theorem dueInstr_ok {q : Seq} {i : Instr} (h : dueInstr q = some i) (c : RawConfig) :
    i.wellFormed c = true ∧ dueSeq i = some q := by
  revert h
  cases q <;> intro h <;> cases h <;> exact ⟨rfl, rfl⟩

/-- What the decoder reads stands at a place, so it is never an operation. -/
theorem place_of_decodeAt {c : RawConfig} {p : Place} {w : Nat} {i : Instr}
    (h : decodeAt c p w = .ok i) : i.place = some p := by
  cases p with
  | wire =>
    simp only [decodeAt, decodeWire] at h
    split at h
    · split at h
      · cases h; rfl
      · split at h <;> cases h <;> rfl
    · cases h
  | producer =>
    simp only [decodeAt, decodeProducer] at h
    split at h
    · split at h
      · cases h; rfl
      · split at h <;> cases h <;> rfl
    · cases h
  | resultCode =>
    simp only [decodeAt, decodeResultCode] at h
    split at h
    all_goals first
      | (cases h; rfl)
      | (split at h <;> cases h; rfl)
  | haltCause =>
    simp only [decodeAt, decodeHaltCause] at h
    split at h <;> cases h <;> rfl

/-- Where the instruction of a step comes from: it is invoked, its bits come in, or the tick engine
runs it. -/
def Origin (s : State) (i : Instr) : Prop :=
  s.schedule.head? = some (.op i) ∨ i.place ≠ none ∨ dueInstr s.seq = some i

theorem invoke_cases {s t : State} {i : Instr} (h : invoke i s = .next t) :
    i.wellFormed s.cfg.toRawConfig = true ∧ s.stepDue i = true ∧ exec i s = .next t := by
  unfold invoke at h
  split at h
  · split at h
    · exact ⟨‹_›, ‹_›, h⟩
    · cases h
  · cases h

theorem engine_cases {s t : State} (h : engine s = .next t) :
    t = s ∨ ∃ i, dueInstr s.seq = some i ∧ i.wellFormed s.cfg.toRawConfig = true ∧
      s.stepDue i = true ∧ exec i s = .next t := by
  unfold engine at h
  split at h
  · cases h; exact .inl rfl
  · rename_i i hd
    obtain ⟨hw, hq⟩ := dueInstr_ok hd s.cfg.toRawConfig
    exact .inr ⟨i, hd, hw, by simp [State.stepDue, hq], h⟩

/-- One step that has a next state: nothing happens, or one well-formed instruction in its order runs,
or a trigger comes, or the ports change. The event, if any, is gone. -/
theorem step_cases {s t : State} (h : step s = .next t) :
    ∃ u, u = { s with schedule := s.schedule.tail } ∧
      (t = u ∨
      (∃ i, Origin s i ∧ i.wellFormed s.cfg.toRawConfig = true ∧ s.stepDue i = true ∧
        exec i u = .next t) ∨
      t = u.triggered ∨
      ∃ p, p.wellFormed s.cfg.toRawConfig = true ∧ t = { u with ports := p }) := by
  refine ⟨_, rfl, ?_⟩
  unfold step at h
  split at h
  · rename_i hs
    have hu : ({ s with schedule := s.schedule.tail } : State) = s := by rw [hs, List.tail_nil, ← hs]
    rw [hu]
    rcases engine_cases h with h | ⟨i, hd, hw, hq, hx⟩
    · exact .inl h
    · exact .inr (.inl ⟨i, .inr (.inr hd), hw, hq, hx⟩)
  · rename_i e es hs
    rw [hs, List.tail_cons]
    cases e with
    | op i =>
      obtain ⟨hw, hq, hx⟩ := invoke_cases h
      exact .inr (.inl ⟨i, .inl (by rw [hs]; rfl), hw, hq, hx⟩)
    | code p w =>
      simp only [deliver] at h
      split at h
      · rename_i i hd
        obtain ⟨hw, hq, hx⟩ := invoke_cases h
        exact .inr (.inl ⟨i, .inr (.inl (by rw [place_of_decodeAt hd]; exact fun e => nomatch e)),
          hw, hq, hx⟩)
      · cases h
    | trigger =>
      cases h
      exact .inr (.inr (.inl rfl))
    | present p =>
      simp only [deliver] at h
      split at h
      · rename_i hp
        cases h
        exact .inr (.inr (.inr ⟨p, hp, rfl⟩))
      · cases h
    | wait =>
      rcases engine_cases h with h | ⟨i, hd, hw, hq, hx⟩
      · exact .inl h
      · exact .inr (.inl ⟨i, .inr (.inr hd), hw, hq, hx⟩)

end Sys2Proof.Machine
end

