-- ==== Sys2Proof/Tests/Slice0.lean ====
section
/-! SUPPORT. Tests of the model against the vectors V<n> and programs P<n> of 95_test_vectors.md (their
numbers stand at each test), the ill-formed terms that the checks refuse, and for every obligation
with hypotheses a witness that meets them. -/

namespace Sys2Proof.Tests

open Machine

/-! ### Small states -/

/-- The test values of 95_test_vectors.md: WORD_BITS 32, FX 64/32, DIV 90..110, DIV_INIT 100,
ACT_SIGN +1. -/
def rawOf (degree b mask : Nat) (kp ki kd : Fx) : RawConfig where
  degree := degree
  payloadBits := 28
  b := b
  k := 4
  liveThreshold := 3
  enableMask := mask
  cntBits := 32
  fxBits := 64
  fxFrac := 32
  kp := kp
  ki := ki
  kd := kd
  pidVariant := .permissive
  divMin := 90
  divMax := 110
  divInit := 100
  actSign := .plus
  actKind := .intDivider

/-- Program P1: DEGREE 4, B 64, gains 0. -/
def cfg4 : Config := ⟨rawOf 4 64 0b1111 0 0 0, by decide⟩

/-- Program P4: DEGREE 2, B 4, gains 0. -/
def cfg2 : Config := ⟨rawOf 2 4 0b11 0 0 0, by decide⟩

/-- DEGREE 2, B 4, link 1 disabled. -/
def cfgMask : Config := ⟨rawOf 2 4 0b01 0 0 0, by decide⟩

/-- Program P5: gains 0.5, 0.125, 0.25. -/
def cfgPid : Config := ⟨rawOf 4 64 0b1111 0x80000000 0x20000000 0x40000000, by decide⟩

/-- As `cfgPid`, with the strict PID variant. -/
def cfgStrict : Config :=
  ⟨{ rawOf 4 64 0b1111 0x80000000 0x20000000 0x40000000 with pidVariant := .strict }, by decide⟩

/-- As `cfgPid`, with ACT_SIGN −1. -/
def cfgMinus : Config :=
  ⟨{ rawOf 4 64 0b1111 0x80000000 0x20000000 0x40000000 with actSign := .minus }, by decide⟩

/-- V42: DEGREE 8. -/
def cfg8 : Config := ⟨rawOf 8 64 0b11111111 0 0 0, by decide⟩

/-- The reset state with these values at the ports. -/
def held (c : Config) (user : Option Word) (rx : List (List Word)) (act : ActStatus) : State :=
  { State.resetIn c with ports := ⟨user, rx, act⟩ }

/-- A field of the state after one instruction. -/
def after {α : Type} (i : Instr) (s : State) (f : State → α) : Option α :=
  match exec i s with
  | .next t => some (f t)
  | .fault _ => none
  | .refused _ => none

/-- A field of the state after one step. -/
def afterStep {α : Type} (s : State) (f : State → α) : Option α :=
  match step s with
  | .next t => some (f t)
  | .fault _ => none
  | .refused _ => none

/-- Why a step is refused. -/
def whyRefused (s : State) : Option Refusal :=
  match step s with
  | .next _ => none
  | .fault _ => none
  | .refused r => some r

/-- A whole number as an FX value of the default format. -/
def fx (n : Int) : Fx := n * 0x100000000

/-! ### Decoding: words written out from 30_encoding.md -/

theorem test_decode_sync :
    decodeAt cfg4.toRawConfig .wire 0b00000000000000000000000000000001 = .ok .sync := by decide
/-- V15. -/
theorem test_decode_data :
    decodeAt cfg4.toRawConfig .wire 0b00000000000000000000001010100000 = .ok (.data 0 42) := by decide
/-- V14. -/
theorem test_decode_zero_is_data : decodeAt cfg4.toRawConfig .wire 0 = .ok (.data 0 0) := by decide
/-- V19, V20. -/
theorem test_decode_dataNc :
    decodeAt cfg4.toRawConfig .wire 0b00000000000000000000000000010011 = .ok (.dataNc 1 1) ∧
    decodeAt cfg4.toRawConfig .wire 0xFFFFFFFF = .ok (.dataNc 7 0xFFFFFFF) := by decide
theorem test_decode_userSync :
    decodeAt cfg4.toRawConfig .producer 0b00000000000000000000000000000001 = .ok .userSync := by decide
/-- V40, V41. -/
theorem test_decode_userBadnbr :
    decodeAt cfg4.toRawConfig .producer 0b00000000000000000000000000011010 =
      .ok (.userBadnbr 5 1 false) ∧
    decodeAt cfg4.toRawConfig .producer 0xFFFFFFFF = .ok (.userBadnbr 7 0xFFFFFFF true) := by decide
/-- V44, V42. -/
theorem test_decode_userData :
    decodeAt cfg4.toRawConfig .producer 0b00000000000000000000000000010011 =
      .ok (.userData 1 1 true) ∧
    decodeAt cfg8.toRawConfig .producer 0xFFFFFFFF = .ok (.userData 7 0xFFFFFFF true) := by decide
/-- R78. -/
theorem test_decode_resultCodes :
    [0, 1, 2, 3, 4, 5, 6].map (decodeAt cfg4.toRawConfig .resultCode) =
      [.ok .ok, .ok .syncMessageFromUserCode, .ok .invalidNeighbor, .ok .tideFifoFull,
        .ok .frequencyControllerError, .ok .decodeError, .ok .tickOverrun] := by decide
/-- V93. -/
theorem test_decode_resultReserved :
    [0x07, 0x2A, 0xFF].map (decodeAt cfg4.toRawConfig .resultCode) =
      [.ok (.resultReserved 0x07), .ok (.resultReserved 0x2A), .ok (.resultReserved 0xFF)] := by
  decide
/-- R80. -/
theorem test_decode_haltCauses :
    [0, 1, 2].map (decodeAt cfg4.toRawConfig .haltCause) =
      [.ok .haltNone, .ok .haltTideFifoFull, .ok .haltTickOverrun] := by decide
theorem test_decode_refusals :
    decodeAt cfg4.toRawConfig .wire (2 ^ 32) = .error .notAWord ∧
    decodeAt cfg4.toRawConfig .producer (2 ^ 32) = .error .notAWord ∧
    decodeAt cfg4.toRawConfig .resultCode 256 = .error .notAResultCode ∧
    decodeAt cfg4.toRawConfig .haltCause 3 = .error .notAHaltCause := by decide
theorem test_decodeTableWord :
    decodeTableWord 32 0x13 = some (.dataNc 1 1) ∧ decodeTableWord 8 4 = some .frequencyControllerError ∧
    decodeTableWord 2 2 = some .haltTickOverrun ∧ decodeTableWord 2 3 = none := by decide
theorem test_withFetchWord :
    afterStep (State.reset.withFetchWord 32 0x2A0) (·.ret) = some (.message (.data 0 42)) := by decide

/-! ### Well-formedness: an ill-formed term for each check -/

/-- One breach of each constraint of R10 and R11, in their order. -/
theorem test_illFormed_configurations :
    ∀ c ∈ [rawOf 0 4 0 0 0 0, rawOf 9 4 0 0 0 0, { rawOf 2 4 0 0 0 0 with payloadBits := 0 },
      rawOf 2 0 0 0 0 0, { rawOf 2 4 0 0 0 0 with k := 0 },
      { rawOf 2 4 0 0 0 0 with liveThreshold := 0 }, rawOf 2 4 0b100 0 0 0,
      { rawOf 2 4 0 0 0 0 with cntBits := 0 }, { rawOf 2 4 0 0 0 0 with fxFrac := 64 },
      rawOf 2 4 0 (2 ^ 63) 0 0, rawOf 2 4 0 0 (2 ^ 63) 0, rawOf 2 4 0 0 0 (-2 ^ 63 - 1),
      { rawOf 2 4 0 0 0 0 with divInit := 89 }, { rawOf 2 4 0 0 0 0 with divInit := 111 },
      { rawOf 2 4 0 0 0 0 with divMax := 2 ^ 31 }, rawOf 2 (2 ^ 30) 0 0 0 0],
      (Config.ofRaw? c).isNone = true := by decide
theorem test_wellFormed_configuration : (Config.ofRaw? (rawOf 4 64 0b1111 0 0 0)).isSome = true := by
  decide
theorem test_illFormed_wireWords :
    ∀ i ∈ [Instr.data 8 0, .data 0 (2 ^ 28), .dataNc 8 0, .dataNc 1 (2 ^ 28), .dataNc 0 0],
      i.wellFormed cfg4.toRawConfig = false := by decide
theorem test_illFormed_producerWords :
    ∀ i ∈ [Instr.userBadnbr 3 0 false, .userBadnbr 8 0 false, .userBadnbr 4 (2 ^ 28) false,
      .userData 4 0 false, .userData 3 (2 ^ 28) false, .userData 0 0 true],
      i.wellFormed cfg4.toRawConfig = false := by decide
theorem test_illFormed_userData_degree8 :
    (Instr.userData 8 0 false).wellFormed cfg8.toRawConfig = false := by decide
theorem test_illFormed_resultReserved :
    ∀ i ∈ [Instr.resultReserved 6, .resultReserved 256], i.wellFormed cfg4.toRawConfig = false := by
  decide
theorem test_illFormed_operations :
    ∀ i ∈ [Instr.decode (2 ^ 32), .ebPush 4 .sync, .ebPush 0 (.data 8 0), .ebPush 0 (.data 0 (2 ^ 28)),
      .ebPop 4, .ebLevel 4, .ltWrite [1, 1, 1], .ltWrite [1, 1, 1, 2 ^ 32], .pidRun (2 ^ 63) 0,
      .pidRun 0 (-2 ^ 63 - 1), .fcRun [1, 1, 1], .fcRun [1, 1, 1, 65]],
      i.wellFormed cfg4.toRawConfig = false := by decide
theorem test_illFormed_ports :
    ∀ p ∈ [Ports.mk (some (2 ^ 32)) [[], []] .ready, .mk none [[]] .ready, .mk none [[], [2 ^ 32]] .ready],
      p.wellFormed cfg2.toRawConfig = false := by decide
theorem test_step_refuses_illFormed :
    whyRefused { State.resetIn cfg4 with schedule := [.op (.ebPop 4)] } = some .illFormed ∧
    whyRefused { State.resetIn cfg2 with schedule := [.present ⟨none, [[]], .ready⟩] } =
      some .illFormed ∧
    whyRefused { State.resetIn cfg4 with schedule := [.code .haltCause 3] } =
      some (.undecodable .notAHaltCause) ∧
    whyRefused { State.resetIn cfg4 with schedule := [.op .tickT4] } = some .stepNotDue := by decide

/-! ### The codec -/

/-- V1. -/
theorem test_encodeSync : after .encodeSync (State.resetIn cfg4) (·.ret) = some (.word 1) := by decide
/-- V10: the neighbor is masked. -/
theorem test_encodeData_masks :
    after (.encodeData 9 1) (State.resetIn cfg4) (·.ret) = some (.word 0x12) := by decide
/-- V8. -/
theorem test_encodeData_largest :
    after (.encodeData 3 0xFFFFFFF) (State.resetIn cfg4) (·.ret) = some (.word 0xFFFFFFF6) := by decide
/-- V17: not Sync, the whole word is tested. -/
theorem test_decode_whole_word :
    after (.decode 3) (State.resetIn cfg4) (·.ret) = some (.message (.data 1 0)) := by decide
/-- V13. -/
theorem test_decode_one : after (.decode 1) (State.resetIn cfg4) (·.ret) = some (.message .sync) := by
  decide
theorem test_sync : after .sync (State.resetIn cfg4) (·.ret) = some (.message .sync) := by decide
theorem test_data : after (.data 0 42) (State.resetIn cfg4) (·.ret) = some (.message (.data 0 42)) := by
  decide
/-- V20. -/
theorem test_dataNc :
    after (.dataNc 7 0xFFFFFFF) (State.resetIn cfg4) (·.ret) = some (.message (.data 7 0xFFFFFFF)) := by
  decide

/-! ### Codes -/

theorem test_ok :
    after .ok { State.resetIn cfg4 with lastError := .invalidNeighbor } (·.lastError) =
      some .invalidNeighbor := by decide
/-- R190: the first recoverable error is kept. -/
theorem test_raise_keeps_first :
    after .frequencyControllerError { State.resetIn cfg4 with result := .invalidNeighbor } (·.result) =
      some .invalidNeighbor := by decide
theorem test_raise_syncMessage :
    after .syncMessageFromUserCode (State.resetIn cfg4) (fun t => (t.result, t.halt)) =
      some (.syncMessageFromUserCode, .none) := by decide
theorem test_raise_invalidNeighbor :
    after .invalidNeighbor (State.resetIn cfg4) (fun t => (t.result, t.lastError)) =
      some (.invalidNeighbor, .ok) := by decide
/-- R196. -/
theorem test_raise_tideFifoFull :
    after .tideFifoFull { State.resetIn cfg4 with seq := .t4, result := .invalidNeighbor }
      (fun t => (t.result, t.halt, t.lastError, t.snap.halt, t.seq)) =
      some (.tideFifoFull, .tideFifoFull, .tideFifoFull, .tideFifoFull, .idle) := by decide
theorem test_raise_tickOverrun :
    after .tickOverrun { State.resetIn cfg4 with seq := .t6 }
      (fun t => (t.halt, t.snap.lastError, t.seq)) = some (.tickOverrun, .tickOverrun, .idle) := by
  decide
/-- R191: reading it raises nothing. -/
theorem test_decodeError :
    after .decodeError (State.resetIn cfg4) (fun t => (t.ret, t.result)) =
      some (.result .decodeError, .ok) := by decide
/-- V93. -/
theorem test_resultReserved :
    after (.resultReserved 0x2A) (State.resetIn cfg4) (·.ret) = some (.result .decodeError) := by decide
theorem test_haltNone : after .haltNone (State.resetIn cfg4) (·.ret) = some (.haltCause .none) := by decide
theorem test_haltTideFifoFull :
    after .haltTideFifoFull (State.resetIn cfg4) (fun t => (t.ret, t.halt)) =
      some (.haltCause .tideFifoFull, .none) := by decide
theorem test_haltTickOverrun :
    after .haltTickOverrun (State.resetIn cfg4) (fun t => (t.ret, t.halt)) =
      some (.haltCause .tickOverrun, .none) := by decide

/-! ### The Elastic Buffer, B = 4 -/

/-- The buffer of link 0 set to `q`. -/
def buffered (q : List Message) : State := { State.resetIn cfg2 with eb := [q, [.sync, .sync]] }

/-- V23: B/2 rounds down. -/
theorem test_ebNew_odd :
    after .ebNew (State.resetIn ⟨rawOf 2 5 0b11 0 0 0, by decide⟩) (·.ret) =
      some (.buffer [.sync, .sync]) := by decide
/-- V24. -/
theorem test_ebPush :
    after (.ebPush 0 (.data 0 2)) (buffered [.sync, .sync, .sync]) (fun t => (t.eb, t.halt)) =
      some ([[.sync, .sync, .sync, .data 0 2], [.sync, .sync]], .none) := by decide
/-- V25. -/
theorem test_ebPush_full :
    after (.ebPush 0 .sync) (buffered [.sync, .sync, .sync, .data 0 2]) (fun t => (t.eb, t.ret)) =
      some ([[.sync, .sync, .sync, .data 0 2], [.sync, .sync]], .result .tideFifoFull) := by decide
/-- V26. -/
theorem test_ebPop :
    after (.ebPop 0) (buffered [.sync, .data 0 2]) (fun t => (t.ebAt 0, t.ret)) =
      some ([.data 0 2], .popped (some .sync)) := by decide
/-- V28. -/
theorem test_ebPop_empty :
    after (.ebPop 0) (buffered []) (fun t => (t.ebAt 0, t.ret)) = some ([], .popped none) := by decide
/-- V29, V22. -/
theorem test_ebLevel :
    after (.ebLevel 0) (buffered []) (·.ret) = some (.level 0) ∧
    after (.ebLevel 3) (State.resetIn cfg4) (·.ret) = some (.level 32) := by decide

/-! ### The Link Transport -/

theorem test_ltWrite :
    after (.ltWrite [1, 0x20]) (State.resetIn cfg2) (·.outs.tx) = some (some [1, 0x20]) := by decide
/-- R112: K = 4 words are taken, the rest wait; V33, V36: LIVE. -/
theorem test_ltRead :
    after .ltRead { held cfg2 none [[1, 2, 3, 4, 5], []] .ready with live := [2, 2] }
      (fun t => (t.ret, t.ports.rx, t.live)) =
      some (.bursts [[1, 2, 3, 4], []], [[5], []], [0, 3]) := by decide
/-- V34: saturation. -/
theorem test_ltRead_saturates :
    after .ltRead { State.resetIn cfg2 with live := [3, 0] } (·.live) = some [3, 1] := by decide
/-- V32, V33. -/
theorem test_ltActive :
    after .ltActive { State.resetIn cfg2 with live := [2, 3] } (·.ret) = some (.flags [true, false]) := by
  decide

/-! ### The producer classes and the steps of the tick -/

theorem test_userSync :
    after .userSync (State.resetIn cfg4) (·.result) = some .syncMessageFromUserCode := by decide
theorem test_userBadnbr :
    after (.userBadnbr 5 1 false) (State.resetIn cfg4) (fun t => (t.result, t.out)) =
      some (.invalidNeighbor, [.sync, .sync, .sync, .sync]) := by decide
theorem test_userData :
    after (.userData 1 1 true) (State.resetIn cfg4) (·.out) =
      some [.sync, .data 1 1, .sync, .sync] := by decide
/-- V40. -/
theorem test_tickT1_rejects :
    after .tickT1 (held cfg4 (some 0x1A) [[], [], [], []] .ready) (fun t => (t.result, t.ports.user, t.seq)) =
      some (.invalidNeighbor, none, .t2) := by decide
/-- V44. -/
theorem test_tickT1_stages :
    after .tickT1 (held cfg4 (some 0x13) [[], [], [], []] .ready) (·.out) =
      some [.sync, .data 1 1, .sync, .sync] := by decide
/-- R127. -/
theorem test_tickT2 :
    after .tickT2 { State.resetIn cfg2 with out := [.sync, .data 1 7] } (·.outs.tx) =
      some (some [1, 0x72]) := by decide
/-- V54's burst, E5: retagged with the link number. -/
theorem test_tickT3 :
    after .tickT3 (held cfg2 none [[1, 1, 0x20, 1], [0x2AA]] .ready)
      (fun t => (t.rxm, t.syncCnt, t.dataCnt, t.live)) =
      some ([[.sync, .sync, .data 0 2, .sync], [.data 1 42]], [3, 0], [1, 1], [0, 0]) := by decide
/-- V55. -/
theorem test_tickT4_overflow :
    after .tickT4 { State.resetIn cfg2 with rxm := [[.sync], [.sync, .sync, .sync]] }
      (fun t => (t.ebAt 0, t.ebAt 1, t.halt, t.seq)) =
      some ([.sync, .sync, .sync], [.sync, .sync, .sync, .sync], .tideFifoFull, .idle) := by decide
/-- V53, T4. -/
theorem test_tickT4_fills :
    after .tickT4 { State.resetIn cfg2 with rxm := [[.sync, .data 0 2], [.sync]] } (·.ebAt 0) =
      some [.sync, .sync, .sync, .data 0 2] := by decide
/-- V51: a Data Message is forwarded, an empty buffer is warned of and counted. -/
theorem test_tickT5 :
    after .tickT5 { State.resetIn cfg2 with eb := [[.data 0 7, .sync], []] }
      (fun t => (t.eb, t.outs.fwd, t.outs.warn, t.emptyCnt)) =
      some ([[.sync], []], [0x70], [false, true], [0, 1]) := by decide
/-- R134: a disabled link is not popped. -/
theorem test_tickT5_disabled :
    after .tickT5 { State.resetIn cfgMask with eb := [[], []] } (fun t => (t.emptyCnt, t.outs.warn)) =
      some ([1, 0], [true, false]) := by decide
theorem test_tickT6 :
    after .tickT6 { State.resetIn cfg2 with eb := [[.sync], []], dataCnt := [5, 6] }
      (fun t => (t.snap.level, t.snap.dataCnt)) = some ([1, 0], [5, 6]) := by decide
/-- V85 through T7. -/
theorem test_tickT7_reject :
    after .tickT7 { held cfgPid none [[], [], [], []] .reject with
        eb := [33, 32, 32, 33].map (List.replicate · .sync) }
      (fun t => (t.lastError, t.divState, t.lastCorr, t.outs.actw, t.snap.lastError)) =
      some (.frequencyControllerError, fx 100, -0x1C0000000, some 98, .frequencyControllerError) := by decide
/-- E6: a link whose LIVE has reached the threshold is not counted. -/
theorem test_tickT7_degree :
    after .tickT7 { State.resetIn cfg4 with live := [0, 2, 3, 3] } (fun t => (t.fcDegree, t.snap.degree)) =
      some (2, 2) := by decide

/-! ### TICK -/

/-- V42: DEGREE 8. -/
theorem test_tick_degree8 :
    after .tick (held cfg8 (some 0xFFFFFFFF) (List.replicate 8 []) .ready) (fun t => (t.ret, t.outs.tx)) =
      some (.result .ok, some [1, 1, 1, 1, 1, 1, 1, 0xFFFFFFFE]) := by decide
/-- V54, P4's first tick. -/
theorem test_tick_overflow :
    after .tick (held cfg2 none [[1, 1, 0x20, 1], [1]] .ready)
      (fun t => (t.ret, t.outs, t.eb, t.integ, t.fcDegree)) =
      some (.result .tideFifoFull, ⟨some [1, 1], [], none, [false, false]⟩,
        [[.sync, .sync, .sync, .sync], [.sync, .sync]], 0, 2) := by decide

/-! ### PID and Frequency Controller -/

/-- V74. -/
theorem test_pidRun :
    after (.pidRun (fx 128) (fx 131)) (State.resetIn cfgPid) (fun t => (t.ret, t.integ, t.prevErr)) =
      some (.correction (some (-0x2A0000000)), fx (-3), fx (-3)) := by decide
/-- V80: the strict variant. -/
theorem test_pidRun_strict :
    after (.pidRun (-2 ^ 63) (fx 1)) { State.resetIn cfgStrict with integ := 7 }
      (fun t => (t.ret, t.integ)) = some (.correction none, 7) := by decide
/-- V69, V64, V66: floor and saturation. -/
theorem test_fixedPoint :
    satMul cfg4.toRawConfig 0x55555555 (-0x80000000) = -0x2AAAAAAB ∧
    satMul cfg4.toRawConfig (2 ^ 63 - 1) (fx 2) = 2 ^ 63 - 1 ∧
    satMul cfg4.toRawConfig (-2 ^ 63) (fx (-1)) = 2 ^ 63 - 1 := by decide
theorem test_fcSetDegree :
    after (.fcSetDegree 3) (State.resetIn cfg4) (·.fcDegree) = some 3 := by decide
/-- R166: "the value is not validated". -/
theorem test_fcSetDegree_not_validated :
    afterStep { State.resetIn cfg4 with schedule := [.op (.fcSetDegree 9)] } (·.fcDegree) = some 9 := by
  decide
/-- V84: a busy actuator takes no write and the divider moves. -/
theorem test_fcRun_busy :
    after (.fcRun [33, 32, 32, 33]) (held cfgPid none [[], [], [], []] .busy)
      (fun t => (t.ret, t.outs.actw, t.divState)) = some (.fc true, none, 0x6240000000) := by decide
/-- V86: ACT_SIGN −1. -/
theorem test_fcRun_minus :
    after (.fcRun [33, 32, 32, 33]) (State.resetIn cfgMinus)
      (fun t => (t.outs.actw, t.divState, t.lastCorr)) =
      some (some 101, 0x65C0000000, -0x1C0000000) := by decide
theorem test_fcDebug :
    after .fcDebug { State.resetIn cfg4 with lastCorr := 5, fcDegree := 1 } (·.ret) =
      some (.debug 5 (fx 100) 1) := by decide

/-! ### Debug read and reset -/

/-- R63: during a tick it is not served. -/
theorem test_dbgRead_midTick :
    after .dbgRead { State.resetIn cfg4 with seq := .t3 } (·.ret) = some .notServed := by decide
/-- R196, R63: a trigger at T7 keeps S0 and S5 of the last complete tick, not the S0 of T6. -/
theorem test_overrun_at_T7_keeps_the_snapshot :
    after .tickT6 { State.resetIn cfg2 with eb := [[.sync], []], seq := .t6 } (fun t =>
      (t.snap.level, t.overrun.snap)) =
      some ([1, 0], ⟨[2, 2], [0, 0], [0, 0], [0, 0], .tickOverrun, 0, fx 100, 2, .tickOverrun⟩) := by
  decide
/-- R37's reset values. -/
theorem test_dbgRead :
    after .dbgRead (State.resetIn cfg2) (·.ret) =
      some (.snapshot ⟨[2, 2], [0, 0], [0, 0], [0, 0], .ok, 0, fx 100, 2, .none⟩) := by decide
/-- The block of V54, halted. -/
def halted : State :=
  { held cfg2 (some 0x12) [[1], [1]] .ready with
    eb := [[.sync, .sync, .sync, .sync], [.sync, .sync]]
    syncCnt := [3, 1]
    dataCnt := [1, 0]
    lastError := .tideFifoFull
    halt := .tideFifoFull
    snap := (State.resetIn cfg2).snap.halted .tideFifoFull
    boundary := (State.resetIn cfg2).snap.halted .tideFifoFull }
/-- V92. -/
theorem test_reset :
    after .reset halted (fun t => (t.eb, t.syncCnt, t.halt, t.divState)) =
      some ([[.sync, .sync], [.sync, .sync]], [0, 0], .none, fx 100) := by decide
/-- V89. -/
theorem test_tick_halted :
    after .tick halted (fun t => (t.ret, t.outs.tx, t.ports, t.syncCnt)) =
      some (.result .tideFifoFull, none, ⟨some 0x12, [[1], [1]], .ready⟩, [3, 1]) := by decide

/-! ### Witnesses: for each obligation with hypotheses, states and operands that meet them -/

/-- DEGREE 2, B 4, between ticks: link 0 is full, link 1 holds nothing, words wait on both links. -/
def busy : State := { held cfg2 (some 0x22) [[0x70, 1], []] .ready with
  eb := [[.sync, .sync, .sync, .data 0 2], []] }

/-- The disabled link 1 holds two Messages and link 0 one; one word waits on each. -/
def masked : State := { held cfgMask (some 1) [[0x20], [1]] .reject with
  eb := [[.sync], [.sync, .sync]], rxm := [[.data 0 2, .sync, .sync], [.sync]] }

/-- The second link overflows and the first does not. -/
def filling : State := { State.resetIn cfg2 with
  rxm := [[.sync, .data 0 2], [.sync, .sync, .data 1 3]] }

/-- A state in which link 0 is empty and a Data word waits for it. -/
def starving : State := { held cfg2 none [[0x70], []] .busy with eb := [[], [.sync]] }

theorem busy_shape : busy.ShapeOk := ⟨rfl, rfl, rfl, rfl, rfl, rfl, rfl⟩
theorem filling_shape : filling.ShapeOk := ⟨rfl, rfl, rfl, rfl, rfl, rfl, rfl⟩
theorem masked_shape : masked.ShapeOk := ⟨rfl, rfl, rfl, rfl, rfl, rfl, rfl⟩

theorem busy_inv : busy.Inv where
  shape := busy_shape
  levels := by unfold State.LevelsOk; decide
  fit := ⟨by decide, by decide, by decide⟩
  counters := ⟨by decide, by decide, by decide, by decide⟩
  control := ⟨by decide, by decide, by decide, by decide⟩
  errors := ⟨by decide, by decide, by decide, by decide, by decide, by decide⟩
  snap := ⟨by decide, by decide⟩

theorem masked_inv : masked.Inv where
  shape := masked_shape
  levels := by unfold State.LevelsOk; decide
  fit := ⟨by decide, by decide, by decide⟩
  counters := ⟨by decide, by decide, by decide, by decide⟩
  control := ⟨by decide, by decide, by decide, by decide⟩
  errors := ⟨by decide, by decide, by decide, by decide, by decide, by decide⟩
  snap := ⟨by decide, by decide⟩

theorem starving_inv : starving.Inv where
  shape := ⟨rfl, rfl, rfl, rfl, rfl, rfl, rfl⟩
  levels := by unfold State.LevelsOk; decide
  fit := ⟨by decide, by decide, by decide⟩
  counters := ⟨by decide, by decide, by decide, by decide⟩
  control := ⟨by decide, by decide, by decide, by decide⟩
  errors := ⟨by decide, by decide, by decide, by decide, by decide, by decide⟩
  snap := ⟨by decide, by decide⟩

theorem halted_inv : halted.Inv where
  shape := ⟨rfl, rfl, rfl, rfl, rfl, rfl, rfl⟩
  levels := by unfold State.LevelsOk; decide
  fit := ⟨by decide, by decide, by decide⟩
  counters := ⟨by decide, by decide, by decide, by decide⟩
  control := ⟨by decide, by decide, by decide, by decide⟩
  errors := ⟨by decide, by decide, by decide, by decide, by decide, by decide⟩
  snap := ⟨by decide, by decide⟩

/-- The burst of `busy` finds link 0 full. -/
theorem busy_overflows : busy.Overflows := ⟨0, by decide, by decide, by decide⟩

theorem starving_not_overflows : ¬ starving.Overflows := by
  unfold State.Overflows; decide

theorem witness_DecodingAnEncodedInstructionGivesItBack :
    (Instr.userData 3 (2 ^ 28 - 1) true).wellFormed cfg4.toRawConfig = true ∧
    (Instr.userData 3 (2 ^ 28 - 1) true).place = some .producer ∧
    encode cfg4.toRawConfig (.userData 3 (2 ^ 28 - 1) true) = some 0xFFFFFFF7 := by decide

theorem witness_ADecodedPatternEncodesToItself :
    decodeAt cfg4.toRawConfig .wire 0xFFFFFFFF = .ok (.dataNc 7 0xFFFFFFF) := by decide

theorem witness_EncodeThenDecodeGivesTheMessage : 7 < 8 ∧ 0xFFFFFFF ≤ cfg4.payloadMask := by decide

theorem witness_DecodeThenEncodeClearsBitZero :
    isWord cfg4.toRawConfig 0xFFFFFFFF = true ∧
    (Message.data 7 0xFFFFFFF).fits cfg4.toRawConfig = true ∧ Message.sync.fits cfg4.toRawConfig = true ∧
    2 % 2 = 0 ∧ 2 ≠ 0 := by decide

/-- A word of each class. -/
theorem witness_WireWordClassesAreComplete :
    (∀ w ∈ [0, 1, 3, 2 ^ 32 - 1], isWord (State.resetIn cfg4).cfg.toRawConfig w = true) ∧
    0 % 2 = 0 ∧ 3 % 2 = 1 ∧ 3 ≠ 1 := by decide

theorem witness_RaisingARecoverableErrorKeepsTheFirst :
    busy.halt = .none ∧ busy.result = .ok ∧
    ({ busy with result := .invalidNeighbor } : State).result ≠ .ok := by decide

theorem witness_AFatalErrorHaltsTheBlock : busy.halt = .none := by decide

theorem witness_AReaderTurnsEveryCodeIntoAName :
    7 ≤ (0x07 : BitVec 8).toNat ∧ 7 ≤ 0x07 ∧ 0x07 < 256 ∧ 7 ≤ 0xFF ∧ 0xFF < 256 := by decide

theorem witness_HaltCausesReadBack :
    (2, Instr.haltTickOverrun, HaltCause.tickOverrun) ∈
      [(0, Instr.haltNone, HaltCause.none), (1, .haltTideFifoFull, .tideFifoFull),
        (2, .haltTickOverrun, .tickOverrun)] := by decide

/-- Link 0 is at B, link 1 below it. -/
theorem witness_PushAppendsOrHalts :
    busy.halt = .none ∧ busy.ShapeOk ∧ 0 < busy.cfg.degree ∧ 1 < busy.cfg.degree ∧
    (busy.ebAt 0).length = busy.cfg.b ∧ (busy.ebAt 1).length < busy.cfg.b :=
  ⟨rfl, busy_shape, by decide, by decide, by decide, by decide⟩

/-- Link 0 has a front, link 1 none. -/
theorem witness_PopTakesTheFrontOrNone :
    busy.halt = .none ∧ busy.ShapeOk ∧ 0 < busy.cfg.degree ∧ 1 < busy.cfg.degree ∧
    busy.ebAt 0 = .sync :: [.sync, .sync, .data 0 2] ∧ busy.ebAt 1 = [] :=
  ⟨rfl, busy_shape, by decide, by decide, by decide, by decide⟩

/-- Two pushes bring link 0 to B, then the two Messages it held are popped. -/
theorem witness_BuffersAreFirstInFirstOut :
    filling.halt = .none ∧ filling.ShapeOk ∧ 0 < filling.cfg.degree ∧
    (∀ m ∈ [Message.data 0 1, .data 5 2], m.fits filling.cfg.toRawConfig = true) ∧
    (filling.ebAt 0).length + [Message.data 0 1, .data 5 2].length ≤ filling.cfg.b :=
  ⟨rfl, filling_shape, by decide, by decide, by decide⟩

theorem witness_LinkWriteHandsOverTheWords : busy.halt = .none := by decide

/-- One link gives a burst, the other none; a fifth word is left over. -/
theorem witness_LinkReadTakesAtMostKWords :
    (held cfg2 none [[1, 2, 3, 4, 5], []] .ready).halt = .none ∧
    0 < cfg2.degree ∧ 1 < cfg2.degree ∧
    (held cfg2 none [[1, 2, 3, 4, 5], []] .ready).burst 0 ≠ [] ∧
    (held cfg2 none [[1, 2, 3, 4, 5], []] .ready).burst 1 = [] := by decide

theorem witness_ActiveMeansBelowTheThreshold : 1 < busy.cfg.degree := by decide

/-- No word, the Sync word, the first neighbor number that names no link, the last that names one. -/
theorem witness_FirstStepIngestsTheProducerWord :
    (held cfg2 none [[], []] .ready).ports.user = none ∧ masked.halt = .none ∧ masked.ShapeOk ∧
    masked.ports.user = some 1 ∧ (0x24 ≠ 1 ∧ cfg2.degree ≤ 0x24 / 2 % 8) ∧
    busy.halt = .none ∧ busy.ShapeOk ∧ busy.ports.user = some 0x22 ∧ 0x22 ≠ 1 ∧
    0x22 / 2 % 8 < busy.cfg.degree :=
  ⟨rfl, rfl, masked_shape, rfl, by decide, rfl, busy_shape, rfl, by decide, by decide⟩

theorem witness_FirstStepRunsTheProducerClass :
    busy.halt = .none ∧ busy.ports.user = some 0x22 ∧
    decodeAt busy.cfg.toRawConfig .producer 0x22 = .ok (.userData 1 2 false) := by decide

theorem witness_ProducerClassesRejectOrStage :
    busy.halt = .none ∧ busy.ShapeOk ∧ 1 < busy.cfg.degree := ⟨rfl, busy_shape, by decide⟩

theorem witness_SecondStepSendsOneWordPerLink : busy.halt = .none ∧ 1 < busy.cfg.degree := by decide

theorem witness_ThirdStepDecodesRetagsAndCounts :
    busy.halt = .none ∧ busy.burst 0 = [0x70, 1] ∧ busy.burst 1 = [] := by decide

/-- The enabled link is filled to B, the disabled link's burst is dropped. -/
theorem witness_FourthStepFillsTheEnabledLinks :
    masked.halt = .none ∧ masked.ShapeOk ∧
    (∀ i < masked.cfg.degree, masked.enabled i = true →
      masked.level i + (masked.rxmAt i).length ≤ masked.cfg.b) ∧
    masked.level 0 + (masked.rxmAt 0).length = masked.cfg.b ∧ masked.enabled 1 = false :=
  ⟨rfl, masked_shape, by decide, by decide, by decide⟩

/-- Link 0 is filled to B exactly, link 1 is one Message over. -/
theorem witness_FourthStepHaltsAtTheFirstOverflow :
    filling.halt = .none ∧ filling.ShapeOk ∧ filling.LevelsOk ∧ 1 < filling.cfg.degree ∧
    filling.enabled 1 = true ∧ filling.cfg.b < filling.level 1 + (filling.rxmAt 1).length ∧
    ∀ i < 1, filling.enabled i = true →
      filling.level i + (filling.rxmAt i).length ≤ filling.cfg.b :=
  ⟨rfl, filling_shape, by unfold State.LevelsOk; decide, by decide, by decide, by decide, by decide⟩

/-- A link that gives a Message, one that is empty, one that is disabled. -/
theorem witness_FifthStepDrainsOneMessagePerLink :
    busy.halt = .none ∧ busy.Inv ∧ busy.enabled 0 = true ∧
    busy.ebAt 0 = .sync :: [.sync, .sync, .data 0 2] ∧ busy.enabled 1 = true ∧ busy.ebAt 1 = [] ∧
    masked.halt = .none ∧ masked.Inv ∧ masked.enabled 1 = false :=
  ⟨rfl, busy_inv, by decide, by decide, by decide, by decide, rfl, masked_inv, by decide⟩

theorem witness_SixthStepRecordsLevelsAndCounters : busy.halt = .none ∧ busy.ShapeOk :=
  ⟨rfl, busy_shape⟩

/-- A ready actuator and a rejecting one. -/
theorem witness_SeventhStepCorrectsAndCompletes :
    (busy.halt = .none ∧ busy.Inv ∧ busy.ports.act = .ready) ∧
    masked.halt = .none ∧ masked.Inv ∧ masked.ports.act = .reject :=
  ⟨⟨rfl, busy_inv, rfl⟩, rfl, masked_inv, rfl⟩

/-- An error in range at each limit, one below and one above, in both variants. -/
theorem witness_PidRunFollowsItsFormula :
    (State.resetIn cfgPid).halt = .none ∧ cfgPid.pidVariant = .permissive ∧
    (State.resetIn cfgStrict).halt = .none ∧ cfgStrict.pidVariant = .strict ∧
    cfgPid.fxMin ≤ -2 ^ 63 - 0 ∧ (2 ^ 63 - 1) - 0 ≤ cfgPid.fxMax ∧
    -2 ^ 63 - 1 < cfgPid.fxMin ∧ cfgPid.fxMax < (2 ^ 63 - 1) - (-1) := by decide

/-- A sum at the limit, one below the range and one above. -/
theorem witness_FixedPointArithmeticSaturates :
    cfg4.isFx (2 ^ 63 - 2 + 1) ∧ (-2 ^ 63 - 1 : Int) < cfg4.fxMin ∧ cfg4.fxMax < (2 ^ 63 : Int) := by
  decide

theorem witness_ZeroErrorLeavesTheIntegral : busy.halt = .none ∧ busy.Inv := ⟨rfl, busy_inv⟩

/-- Every link at B and every link empty. -/
theorem witness_PidVariantsAgreeForTheFrequencyController :
    4 ≤ cfg4.degree ∧ [64, 64, 64, 64].length = cfg4.degree ∧ (∀ l ∈ [64, 64, 64, 64], l ≤ cfg4.b) ∧
    ∀ l ∈ [0, 0, 0, 0], l ≤ cfg4.b := by decide

theorem witness_SetDegreeStoresTheCount : busy.halt = .none := by decide

/-- Each answer of the actuator and each sign. -/
theorem witness_FrequencyControllerRunMovesTheDivider :
    (busy.halt = .none ∧ busy.ControlOk ∧ busy.DegreeOk ∧ [4, 0].length = busy.cfg.degree ∧
      (∀ l ∈ [4, 0], l ≤ busy.cfg.b) ∧ busy.ports.act = .ready) ∧
    (masked.halt = .none ∧ masked.ControlOk ∧ masked.DegreeOk ∧ masked.ports.act = .reject) ∧
    (starving.halt = .none ∧ starving.ControlOk ∧ starving.DegreeOk ∧ starving.ports.act = .busy) ∧
    cfgPid.actSign = .plus ∧ cfgMinus.actSign = .minus :=
  ⟨⟨rfl, busy_inv.control, Nat.le_refl _, by decide, by decide, rfl⟩,
    ⟨rfl, masked_inv.control, Nat.le_refl _, rfl⟩, ⟨rfl, starving_inv.control, Nat.le_refl _, rfl⟩,
    rfl, rfl⟩

theorem witness_AHaltedTickDoesNothing :
    halted.halt ≠ .none ∧ halted.halt = .tideFifoFull ∧
    ({ halted with halt := .tickOverrun } : State).halt ≠ .none := by decide

theorem witness_ATriggerDuringATickHaltsTheBlock :
    ({ busy with seq := .t5 } : State).halt = .none ∧ ({ busy with seq := .t5 } : State).seq ≠ .idle := by
  decide

/-- A tick that overflows, and one that does not, on a link with a burst and on an empty one. -/
theorem witness_ATickMovesEachLevelByItsBurstLessOne :
    (busy.Inv ∧ busy.halt = .none ∧ busy.seq = .idle ∧ busy.Overflows) ∧
    (starving.Inv ∧ starving.halt = .none ∧ starving.seq = .idle ∧ ¬ starving.Overflows ∧
      starving.enabled 0 = true ∧ 1 ≤ starving.level 0 + (starving.burst 0).length) ∧
    ({ starving with ports := ⟨none, [[], []], .busy⟩ } : State).level 0 +
      (({ starving with ports := ⟨none, [[], []], .busy⟩ } : State).burst 0).length = 0 ∧
    masked.Inv ∧ masked.halt = .none ∧ masked.seq = .idle ∧ masked.enabled 1 = false :=
  ⟨⟨busy_inv, rfl, rfl, busy_overflows⟩,
    ⟨starving_inv, rfl, rfl, starving_not_overflows, by decide, by decide⟩, by decide,
    masked_inv, rfl, rfl, by decide⟩

/-- An overflow; the Sync word and a rejecting actuator together; no word and a busy actuator. -/
theorem witness_ATickReturnsTheErrorOfHighestPriority :
    (busy.Inv ∧ busy.halt = .none ∧ busy.seq = .idle ∧ busy.Overflows) ∧
    (masked.Inv ∧ masked.halt = .none ∧ masked.seq = .idle ∧ ¬ masked.Overflows ∧
      masked.ports.user = some 1 ∧ masked.ports.act = .reject) ∧
    (starving.Inv ∧ starving.halt = .none ∧ starving.seq = .idle ∧ ¬ starving.Overflows ∧
      starving.ports.user = none ∧ starving.ports.act ≠ .reject) ∧
    (0x24 ≠ 1 ∧ cfg2.degree ≤ 0x24 / 2 % 8) ∧ 0x22 ≠ 1 ∧ 0x22 / 2 % 8 < cfg2.degree :=
  ⟨⟨busy_inv, rfl, rfl, busy_overflows⟩,
    ⟨masked_inv, rfl, rfl, by unfold State.Overflows; decide, rfl, rfl⟩,
    ⟨starving_inv, rfl, rfl, starving_not_overflows, rfl, by decide⟩, by decide, by decide, by decide⟩

/-- A word for link 1, so link 0 gets Sync. -/
theorem witness_ATickSendsOneWordOnEveryLink :
    busy.halt = .none ∧ busy.seq = .idle ∧
    (∀ w, busy.ports.user = some w → isWord busy.cfg.toRawConfig w = true) ∧
    0x22 ≠ 1 ∧ 0x22 / 2 % 8 = 1 ∧ 1 < busy.cfg.degree ∧ 0x22 / 2 % 8 ≠ 0 :=
  ⟨rfl, rfl, fun w h => by cases h; decide, by decide, by decide, by decide, by decide⟩

theorem witness_AMessageThatFindsAnEmptyBufferIsForwardedAtOnce :
    starving.Inv ∧ starving.halt = .none ∧ starving.seq = .idle ∧ ¬ starving.Overflows ∧
    0 < starving.cfg.degree ∧ starving.enabled 0 = true ∧ starving.ebAt 0 = [] ∧
    starving.burst 0 = 0x70 :: [] ∧ 0x70 ≠ 1 :=
  ⟨starving_inv, rfl, rfl, starving_not_overflows, by decide, by decide, by decide, by decide,
    by decide⟩

/-- The first tick, the last before and the first after link levels reach 0, the third without a word;
a ready actuator and a busy one. -/
theorem witness_WithoutTrafficLinksEmptyAndGoInactive :
    1 ≤ 1 ∧ ActStatus.ready ≠ .reject ∧ ActStatus.busy ≠ .reject ∧ cfg4.liveThreshold ≤ 3 ∧ ¬ cfg4.b / 2 < 32 ∧ cfg4.b / 2 < 33 ∧
    (State.resetIn cfgMask).enabled 0 = true ∧ (State.resetIn cfgMask).enabled 1 = false := by decide

/-- A whole tick over the disabled link 1, which holds two Messages. -/
theorem witness_ADisabledLinkKeepsItsBuffer :
    1 < ({ masked with schedule := [.op .tick] } : State).cfg.degree ∧
    ({ masked with schedule := [.op .tick] } : State).enabled 1 = false ∧
    (∃ t, step { masked with schedule := [.op .tick] } = .next t) ∧
    (∀ es, ({ masked with schedule := [.op .tick] } : State).schedule ≠ .op .reset :: es) ∧
    (∀ m es, ({ masked with schedule := [.op .tick] } : State).schedule ≠ .op (.ebPush 1 m) :: es) ∧
    ∀ es, ({ masked with schedule := [.op .tick] } : State).schedule ≠ .op (.ebPop 1) :: es :=
  ⟨by decide, by decide, ⟨_, rfl⟩, fun _ h => (nomatch h), fun _ _ h => (nomatch h),
    fun _ h => (nomatch h)⟩

theorem witness_TriggerAndSevenStepsEqualTheTick :
    busy.schedule = [] ∧ halted.schedule = [] ∧ ({ busy with seq := .t3 } : State).schedule = [] :=
  ⟨rfl, rfl, rfl⟩

/-- An operation and a pattern of bits at the head of the schedule. -/
theorem witness_AStepRunsTheDecodedInstruction :
    (Instr.userData 1 2 false).wellFormed busy.cfg.toRawConfig = true ∧
    busy.stepDue (.userData 1 2 false) = true ∧
    ({ busy with schedule := [.op (.userData 1 2 false)] } : State).schedule =
      .op (.userData 1 2 false) :: [] ∧
    ({ busy with schedule := [.code .producer 0x22] } : State).schedule = .code .producer 0x22 :: [] ∧
    decodeAt busy.cfg.toRawConfig .producer 0x22 = .ok (.userData 1 2 false) := by decide

theorem witness_TheEngineRunsTheStepThatSTEPNames :
    busy.schedule = [] ∧ busy.seq = .idle ∧
    ({ busy with seq := .t7, schedule := [.wait] } : State).seq = .t7 ∧
    ({ busy with seq := .t7, schedule := [.wait] } : State).schedule = .wait :: [] := by decide

/-- The block of `busy` in the middle of a tick. -/
def midTick : State := { busy with seq := .t4 }

theorem midTick_inv : midTick.Inv where
  shape := ⟨rfl, rfl, rfl, rfl, rfl, rfl, rfl⟩
  levels := busy_inv.levels
  fit := ⟨busy_inv.fit.eb, busy_inv.fit.out, busy_inv.fit.rxm⟩
  counters := ⟨by decide, by decide, by decide, by decide⟩
  control := ⟨by decide, by decide, by decide, by decide⟩
  errors := ⟨by decide, by decide, by decide, by decide, by decide, by decide⟩
  snap := ⟨by decide, by decide⟩

theorem witness_StepsFollowTheFixedOrder : midTick.Inv ∧ ∃ t, step midTick = .next t :=
  ⟨midTick_inv, _, rfl⟩

theorem witness_OnlyResetLeavesAHalt :
    ({ halted with schedule := [.trigger] } : State).halt ≠ .none ∧
    (∃ t, step { halted with schedule := [.trigger] } = .next t) ∧
    ∀ es, ({ halted with schedule := [.trigger] } : State).schedule ≠ .op .reset :: es :=
  ⟨by decide, ⟨_, rfl⟩, fun _ h => nomatch h⟩

theorem witness_ADebugReadSeesTheLastTickBoundary :
    busy.seq = .idle ∧ ({ busy with seq := .t3 } : State).seq ≠ .idle := by decide

theorem witness_NothingChangesTheConfiguration :
    ∃ t, step { busy with schedule := [.op .tick] } = .next t := ⟨_, rfl⟩

/-- A step that changes a buffer, one that changes the snapshot and STEP, one that changes the last
boundary's snapshot, and a row that changes RESULT. -/
theorem witness_EachRegisterHasOnlyItsWriters :
    (∃ t, exec .tickT5 busy = .next t) ∧ Instr.tickT5 ≠ .reset ∧ Instr.tickT5 ≠ .tick ∧
    after .tickT5 busy (fun t => decide (t.eb ≠ busy.eb)) = some true ∧
    after .tickT6 busy (fun t => decide (t.snap ≠ busy.snap ∧ t.seq ≠ busy.seq)) = some true ∧
    after .tickOverrun busy (fun t => decide (t.boundary ≠ busy.boundary)) = some true ∧
    after .userSync busy (fun t => decide (t.result ≠ busy.result)) = some true :=
  ⟨⟨_, rfl⟩, by decide, by decide, by decide, by decide, by decide, by decide⟩

theorem witness_EveryStepKeepsTheInvariant :
    busy.Inv ∧ (∃ t, step busy = .next t) ∧ halted.Inv ∧ ∃ t, step halted = .next t :=
  ⟨busy_inv, ⟨_, rfl⟩, halted_inv, _, rfl⟩

/-- A degree at its limit is set; a tick. -/
theorem witness_EveryStepKeepsTheDegreeInRange :
    busy.DegreeOk ∧
    (∃ t, step { busy with schedule := [.op (.fcSetDegree 2)] } = .next t) ∧ 2 ≤ cfg2.degree ∧
    (∃ t, step { busy with schedule := [.op .tick] } = .next t) ∧
    ∀ d es, ({ busy with schedule := [.op .tick] } : State).schedule ≠ .op (.fcSetDegree d) :: es :=
  ⟨Nat.le_refl _, ⟨_, rfl⟩, by decide, ⟨_, rfl⟩, fun _ _ h => nomatch h⟩

/-- A second trigger right after the first and one at T7; a tick that overflows and one that does not. -/
theorem witness_AnAbandonedTickLeavesTheLastSnapshot :
    0 ≤ 6 ∧ 6 ≤ 6 ∧ (busy.Inv ∧ busy.halt = .none ∧ busy.seq = .idle ∧ busy.Overflows) ∧
    starving.Inv ∧ starving.halt = .none ∧ starving.seq = .idle ∧ ¬ starving.Overflows :=
  ⟨by decide, by decide, ⟨busy_inv, rfl, rfl, busy_overflows⟩, starving_inv, rfl, rfl,
    starving_not_overflows⟩

theorem witness_EveryStepKeepsTheLinkTags :
    (State.resetIn cfg2).TagsOk ∧
    (∃ t, step { State.resetIn cfg2 with schedule := [.op (.ebPush 1 (.data 1 7))] } = .next t) ∧
    (Message.data 1 7).taggedFor 1 = true := by
  refine ⟨⟨fun i m h => ?_, fun i m h => ?_⟩, ⟨_, rfl⟩, rfl⟩
  · match i with
    | 0 => revert m; decide
    | 1 => revert m; decide
    | _ + 2 => exact absurd h (List.not_mem_nil)
  · match i with
    | 0 => revert m; decide
    | 1 => revert m; decide
    | _ + 2 => exact absurd h (List.not_mem_nil)

end Sys2Proof.Tests
end

section
/-! PROOF. The statements of 00_scope.md: raising a recoverable error (R16), the saturating primitives
(R17), and the range of the error on every call of the Frequency Controller (R11). -/

namespace Sys2Proof.Config

/-- R10: the fraction leaves at least one bit of an FX value. -/
theorem fxFrac_lt_fxBits (c : Config) : c.fxFrac < c.fxBits := by
  obtain ⟨-, -, -, -, -, -, -, h, -⟩ := c.wf
  exact h

/-- R11: the sum of all levels is below the limit to which `fx_of_int` is exact. -/
theorem degree_mul_b_lt (c : Config) : c.degree * c.b < 2 ^ (c.fxBits - c.fxFrac - 1) := by
  obtain ⟨-, -, -, -, -, -, -, -, -, -, -, -, -, h⟩ := c.wf
  exact h

end Sys2Proof.Config

namespace Sys2Proof.Machine

/-! ### Raising a recoverable error -/

/-- What raising `e` and answering with it leaves: the first error is kept, `e` is returned. -/
theorem State.raise_answer_keeps_first (s : State) (e : ResultCode) :
    let t := (s.raise e).answer (.result e)
    (s.result = .ok → t.result = e) ∧ (s.result ≠ .ok → t.result = s.result) ∧
      t.ret = .result e ∧ t = { s with result := t.result, ret := t.ret } :=
  ⟨fun h => if_pos h, fun h => if_neg h, rfl, rfl⟩

/-! ### Fixed-point arithmetic -/

/-- Clamping saturates: an FX value always, the number itself in range, the nearer limit outside. -/
theorem clampFx_saturates (c : RawConfig) (z : Int) :
    c.isFx (clampFx c z) ∧ (c.isFx z → clampFx c z = z) ∧
      (z < c.fxMin → clampFx c z = c.fxMin) ∧ (c.fxMax < z → clampFx c z = c.fxMax) :=
  ⟨clampFx_isFx c z, clampFx_of_isFx, clampFx_of_lt, clampFx_of_gt⟩

/-- `floor(z / 2^FX_FRAC)` is the division that rounds toward minus infinity. -/
theorem floorFrac_eq_fdiv (c : RawConfig) (z : Int) : floorFrac c z = z.fdiv (2 ^ c.fxFrac) :=
  (Int.fdiv_eq_ediv_of_nonneg z (by positivity)).symm

/-- Subtraction of integers is exact in FX. -/
theorem fxOfInt_sub (c : RawConfig) (m n : Int) : fxOfInt c m - fxOfInt c n = fxOfInt c (m - n) :=
  (sub_mul m n _).symm

/-- `fx_of_int` gives an FX value for every integer of `FX_BITS - FX_FRAC` bits (R17). -/
theorem fxOfInt_isFx {c : RawConfig} {n : Int} (hf : c.fxFrac < c.fxBits)
    (hlo : -2 ^ (c.fxBits - c.fxFrac - 1) ≤ n) (hhi : n < 2 ^ (c.fxBits - c.fxFrac - 1)) :
    c.isFx (fxOfInt c n) := by
  have hpos : (0 : Int) < 2 ^ c.fxFrac := by positivity
  have hpow : (2 : Int) ^ (c.fxBits - 1) = 2 ^ (c.fxBits - c.fxFrac - 1) * 2 ^ c.fxFrac := by
    rw [← pow_add]
    congr 1
    omega
  simp only [RawConfig.isFx, RawConfig.fxMin, RawConfig.fxMax, fxOfInt, hpow]
  constructor
  · rw [← neg_mul]
    exact mul_le_mul_of_nonneg_right hlo hpos.le
  · exact Int.le_sub_one_of_lt (mul_lt_mul_of_pos_right hhi hpos)

/-! ### The calls of the Frequency Controller -/

/-- An error in range is passed on by both variants (R151). -/
theorem pidError_of_isFx {c : RawConfig} {sp mv : Fx} (h : c.isFx (sp - mv)) :
    pidError c sp mv = some (sp - mv) :=
  if_pos h

/-- Up to DEGREE the target is at most the number of Messages all buffers can hold (R167). -/
theorem fcTarget_le (c : RawConfig) {degree : Nat} (h : degree ≤ c.degree) :
    fcTarget c degree ≤ c.degree * c.b :=
  (Nat.div_le_self _ _).trans (Nat.mul_le_mul_right _ h)

/-- So is the sum of DEGREE levels up to B (R168). -/
theorem fcActual_le (c : RawConfig) {levels : List Nat} (hlen : levels.length = c.degree)
    (hle : ∀ l ∈ levels, l ≤ c.b) : fcActual levels ≤ c.degree * c.b := by
  simpa [fcActual, hlen] using List.sum_le_card_nsmul levels c.b hle

/-- R11: the difference of target and sum of levels is an FX value. -/
theorem fxOfInt_target_sub_actual_isFx (c : Config) {degree : Nat} {levels : List Nat}
    (hd : degree ≤ c.degree) (hlen : levels.length = c.degree) (hle : ∀ l ∈ levels, l ≤ c.b) :
    c.isFx (fxOfInt c.toRawConfig
      ((fcTarget c.toRawConfig degree : Int) - (fcActual levels : Int))) := by
  have ht := fcTarget_le c.toRawConfig hd
  have ha := fcActual_le c.toRawConfig hlen hle
  have hb : ((c.degree * c.b : Nat) : Int) < 2 ^ (c.fxBits - c.fxFrac - 1) := by
    exact_mod_cast c.degree_mul_b_lt
  exact fxOfInt_isFx c.fxFrac_lt_fxBits (by omega) (by omega)

/-! ### The obligations -/

/-- Settles O32: all three primitives clamp their exact result. -/
theorem fixedPointArithmeticSaturates : Obligations.FixedPointArithmeticSaturates := by
  intro c a b z hz
  simp only [List.mem_cons, List.not_mem_nil, or_false] at hz
  obtain rfl | rfl | rfl := hz
  · exact clampFx_saturates c.toRawConfig (a + b)
  · exact clampFx_saturates c.toRawConfig (a - b)
  · rw [← floorFrac_eq_fdiv]
    exact clampFx_saturates c.toRawConfig (floorFrac c.toRawConfig (a * b))

/-- Settles O34: target and sum convert exactly and their difference is in range, where the variant
plays no part. -/
theorem pidVariantsAgreeForTheFrequencyController :
    Obligations.PidVariantsAgreeForTheFrequencyController := by
  intro c degree levels hd hlen hle v
  have he : fcSetpoint c.toRawConfig degree - fxOfInt c.toRawConfig (fcActual levels) =
      fxOfInt c.toRawConfig ((fcTarget c.toRawConfig degree : Int) - (fcActual levels : Int)) := by
    rw [State.fcSetpoint_eq c hd, fxOfInt_sub]
  have hfx := fxOfInt_target_sub_actual_isFx c hd hlen hle
  rw [← he] at hfx
  rw [pidError_of_isFx (c := { c.toRawConfig with pidVariant := v }) hfx, he]
  rfl

/-- Settles O10: each of the three codes raises its error and answers with it. -/
theorem raisingARecoverableErrorKeepsTheFirst :
    Obligations.RaisingARecoverableErrorKeepsTheFirst := by
  intro s hs p hp
  simp only [List.mem_cons, List.not_mem_nil, or_false] at hp
  obtain rfl | rfl | rfl := hp
  · exact ⟨_, exec_syncMessageFromUserCode_running hs, s.raise_answer_keeps_first _⟩
  · exact ⟨_, exec_invalidNeighbor_running hs, s.raise_answer_keeps_first _⟩
  · exact ⟨_, exec_frequencyControllerError_running hs, s.raise_answer_keeps_first _⟩

end Sys2Proof.Machine
end

section
/-! PROOF. The statements of 10_state.md. `Effect` says once what an instruction does to the registers of a
running block and `StepKind` what a step can do; each register's writers (O54) and new values are read
off `Effect`, and every invariant (O53, O55, O57, O58, O59) is one use of `step_keeps`. -/

namespace Sys2Proof.Machine

/-! ### States with the same registers -/

namespace State

theorem sameBlock_iff {s t : State} :
    s.sameBlock t ↔ ∃ p o r es, t = { s with ports := p, outs := o, ret := r, schedule := es } :=
  ⟨fun h => ⟨_, _, _, _, h⟩, by rintro ⟨p, o, r, es, rfl⟩; rfl⟩

theorem sameBlock_answer (s : State) (r : Ret) : s.sameBlock (s.answer r) := rfl

theorem sameBlock.trans {s t u : State} (h : s.sameBlock t) (h' : t.sameBlock u) : s.sameBlock u := by
  obtain ⟨p, o, r, es, rfl⟩ := sameBlock_iff.mp h
  obtain ⟨p', o', r', es', rfl⟩ := sameBlock_iff.mp h'
  rfl

theorem sameBlock.cfg {s t : State} (h : s.sameBlock t) : t.cfg = s.cfg := by
  obtain ⟨p, o, r, es, rfl⟩ := sameBlock_iff.mp h
  rfl

/-- RESET gives the registers of the reset state (R42); the buffers from EB_NEW are its buffers. -/
theorem sameBlock_afterReset (s : State) : (resetIn s.cfg).sameBlock s.afterReset := by
  rw [afterReset, perLink_const]
  rfl

/-- The state past the event at the head of the schedule. -/
def eventTaken (s : State) : State := { s with schedule := s.schedule.tail }

theorem sameBlock_eventTaken (s : State) : s.sameBlock s.eventTaken := rfl

end State

/-! ### What one instruction does to a running block -/

/-- The instructions that raise a recoverable error outside the tick. -/
def raisesRecoverable (i : Instr) : Prop :=
  i ∈ [Instr.userSync, .syncMessageFromUserCode, .invalidNeighbor, .frequencyControllerError] ∨
    ∃ n p g, i = .userBadnbr n p g

/-- The instructions that can raise a fatal error outside the tick. -/
def raisesFatal (i : Instr) : Prop :=
  i ∈ [Instr.tideFifoFull, .tickOverrun] ∨ ∃ l m, i = .ebPush l m

/-- Every way in which an instruction but TICK and RESET changes the registers of a running block. Each
next state is written as an update of `s`, so that a register it does not name is unchanged by `rfl`. -/
inductive Effect (s : State) : Instr → State → Prop
  | raise {i : Instr} {e : ResultCode} (r : Ret) (hi : raisesRecoverable i) (he : e ≠ .decodeError) :
      Effect s i ((s.raise e).answer r)
  | raiseFatal {i : Instr} {cause : HaltCause} (hi : raisesFatal i) (hc : cause ≠ .none) :
      Effect s i (s.raiseFatal cause)
  | stage (n p : Nat) (tag : Bool) : Effect s (.userData n p tag) ((s.stage n p).answer .none)
  | push {l : Nat} (m : Message) (hroom : (s.ebAt l).length < s.cfg.b) :
      Effect s (.ebPush l m) ((s.setEb l (s.ebAt l ++ [m])).answer .none)
  | pop (l : Nat) : Effect s (.ebPop l) (s.popLink l)
  | ltRead : Effect s .ltRead (s.ltRead.2.answer (.bursts s.ltRead.1))
  | pidMove (sp mv : Fx) {e : Fx} (r : Ret) (he : s.cfg.isFx e) :
      Effect s (.pidRun sp mv) ((s.pidMove e).answer r)
  | fcSetDegree (d : Nat) : Effect s (.fcSetDegree d) ((s.fcSetDegree d).answer .none)
  | fcRun (ls : List Nat) (r : Ret) :
      Effect s (.fcRun ls) { s with
        prevErr := (s.fcRun ls).2.prevErr, integ := (s.fcRun ls).2.integ,
        divState := (s.fcRun ls).2.divState, lastCorr := (s.fcRun ls).2.lastCorr,
        outs := { s.outs with actw := (s.fcRun ls).2.outs.actw }, ret := r }
  | t1 : Effect s .tickT1 { s with
      ports := { s.ports with user := none }, out := s.t1.out, result := s.t1.result,
      seq := .t2, ret := .none }
  | t2 : Effect s .tickT2 s.t2
  | t3 : Effect s .tickT3 s.t3
  | t4 : Effect s .tickT4 { s with eb := (s.fillLinks s.links).1.eb, seq := .t5, ret := .none }
  | overflow : Effect s .tickT4
      (({ s with eb := (s.fillLinks s.links).1.eb } : State).raiseFatal .tideFifoFull)
  | t5 : Effect s .tickT5 s.t5
  | t6 : Effect s .tickT6 s.t6
  | t7 : Effect s .tickT7 { s with
      fcDegree := s.liveCount
      prevErr := ((s.fcSetDegree s.liveCount).fcRun s.levels).2.prevErr
      integ := ((s.fcSetDegree s.liveCount).fcRun s.levels).2.integ
      divState := ((s.fcSetDegree s.liveCount).fcRun s.levels).2.divState
      lastCorr := ((s.fcSetDegree s.liveCount).fcRun s.levels).2.lastCorr
      outs := { s.outs with actw := ((s.fcSetDegree s.liveCount).fcRun s.levels).2.outs.actw }
      result := s.t7Result ((s.fcSetDegree s.liveCount).fcRun s.levels).1
      lastError := if s.t7Result ((s.fcSetDegree s.liveCount).fcRun s.levels).1 = .ok
        then s.lastError else s.t7Result ((s.fcSetDegree s.liveCount).fcRun s.levels).1
      snap := s.t7Snap
      boundary := s.t7Snap
      seq := .idle
      ret := .result (s.t7Result ((s.fcSetDegree s.liveCount).fcRun s.levels).1) }

namespace Effect

theorem of_pushLink (s : State) (l : Nat) (m : Message) : Effect s (.ebPush l m) (s.pushLink l m) := by
  by_cases h : s.cfg.b ≤ (s.ebAt l).length
  · rw [show s.pushLink l m = s.raiseFatal .tideFifoFull by simp [State.pushLink, ebPush, h]]
    exact .raiseFatal (.inr ⟨l, m, rfl⟩) (by decide)
  · rw [show s.pushLink l m = (s.setEb l (s.ebAt l ++ [m])).answer .none by
      simp [State.pushLink, ebPush, h]]
    exact .push m (by omega)

theorem of_fcRun (s : State) (ls : List Nat) (r : Ret) :
    Effect s (.fcRun ls) ((s.fcRun ls).2.answer r) := by
  rw [State.fcRun_frame]
  exact .fcRun ls r

theorem of_t1 (s : State) : Effect s .tickT1 s.t1 := by
  rw [State.t1_frame]
  exact .t1

theorem of_t4 (s : State) : Effect s .tickT4 s.t4 := by
  have hframe := State.fillLinks_frame s.links s
  have ht4 : s.t4 = ((s.fillLinks s.links).1.goto .t5).answer .none ∨
      s.t4 = (s.fillLinks s.links).1.raiseFatal .tideFifoFull := by
    unfold State.t4
    rcases s.fillLinks s.links with ⟨u, _ | _⟩
    · exact .inl rfl
    · exact .inr rfl
  rcases ht4 with h | h <;> rw [h, hframe]
  · exact .t4
  · exact .overflow

theorem of_t7 (s : State) : Effect s .tickT7 s.t7 := by
  rw [State.t7_eq]
  exact .t7

end Effect

/-- In a running block PID_RUN fails and changes nothing, or moves the PID state. -/
theorem pidRun_effect (s : State) (sp mv : Fx) (r : Ret) :
    s.sameBlock ((s.pidRun sp mv).2.answer r) ∨ Effect s (.pidRun sp mv) ((s.pidRun sp mv).2.answer r) := by
  rcases s.pidRun_cases sp mv with ⟨-, h⟩ | ⟨e, he, h⟩ <;> rw [h]
  · exact .inl (s.sameBlock_answer _)
  · exact .inr (.pidMove sp mv _ (pidError_isFx he))

/-- What an instruction that a halt silences does in a running block. -/
theorem silenced_effect {s : State} {i : Instr} (hrun : s.halt = .none) (hi : silenced i = true) :
    ∃ t, exec i s = .next t ∧ (s.sameBlock t ∨ Effect s i t) := by
  cases i with
  | userSync => exact ⟨_, exec_userSync_running hrun, .inr (.raise _ (.inl (by simp)) nofun)⟩
  | userBadnbr n p g =>
    exact ⟨_, exec_userBadnbr_running hrun n p g, .inr (.raise _ (.inr ⟨n, p, g, rfl⟩) nofun)⟩
  | userData n p g => exact ⟨_, exec_userData_running hrun n p g, .inr (.stage n p g)⟩
  | syncMessageFromUserCode =>
    exact ⟨_, exec_syncMessageFromUserCode_running hrun, .inr (.raise _ (.inl (by simp)) nofun)⟩
  | invalidNeighbor =>
    exact ⟨_, exec_invalidNeighbor_running hrun, .inr (.raise _ (.inl (by simp)) nofun)⟩
  | frequencyControllerError =>
    exact ⟨_, exec_frequencyControllerError_running hrun, .inr (.raise _ (.inl (by simp)) nofun)⟩
  | tideFifoFull =>
    exact ⟨_, exec_tideFifoFull_running hrun, .inr (.raiseFatal (.inl (by simp)) nofun)⟩
  | tickOverrun =>
    exact ⟨_, exec_tickOverrun_running hrun, .inr (.raiseFatal (.inl (by simp)) nofun)⟩
  | ebPush l m => exact ⟨_, exec_ebPush_running hrun l m, .inr (.of_pushLink s l m)⟩
  | ebPop l => exact ⟨_, exec_ebPop_running hrun l, .inr (.pop l)⟩
  | ltWrite ws => exact ⟨_, exec_ltWrite_running hrun ws, .inl rfl⟩
  | ltRead => exact ⟨_, exec_ltRead_running hrun, .inr .ltRead⟩
  | tickT1 => exact ⟨_, exec_tickT1_running hrun, .inr (.of_t1 s)⟩
  | tickT2 => exact ⟨_, exec_tickT2_running hrun, .inr .t2⟩
  | tickT3 => exact ⟨_, exec_tickT3_running hrun, .inr .t3⟩
  | tickT4 => exact ⟨_, exec_tickT4_running hrun, .inr (.of_t4 s)⟩
  | tickT5 => exact ⟨_, exec_tickT5_running hrun, .inr .t5⟩
  | tickT6 => exact ⟨_, exec_tickT6_running hrun, .inr .t6⟩
  | tickT7 => exact ⟨_, exec_tickT7_running hrun, .inr (.of_t7 s)⟩
  | pidRun sp mv => exact ⟨_, exec_pidRun_running hrun sp mv, pidRun_effect s sp mv _⟩
  | fcSetDegree d => exact ⟨_, exec_fcSetDegree_running hrun d, .inr (.fcSetDegree d)⟩
  | fcRun ls => exact ⟨_, exec_fcRun_running hrun ls, .inr (.of_fcRun s ls _)⟩
  | _ => exact absurd hi Bool.false_ne_true

/-- An instruction that a halt does not silence, TICK and RESET apart, only answers. -/
theorem exec_unsilenced {i : Instr} (s : State) (hi : silenced i = false) (htick : i ≠ .tick)
    (hreset : i ≠ .reset) : ∃ r, exec i s = .next (s.answer r) := by
  cases i with
  | tick => exact absurd rfl htick
  | reset => exact absurd rfl hreset
  | sync | data | dataNc | ok | decodeError | resultReserved | haltNone | haltTideFifoFull
  | haltTickOverrun | encodeSync | encodeData | decode | ebNew | ebLevel | ltActive | fcDebug
  | dbgRead => exact ⟨_, rfl⟩
  | _ => exact absurd hi.symm Bool.false_ne_true

/-- The trigger and TICK, by what they find: a halted block, a tick in progress, or a block between
ticks (R121, R198). -/
theorem trigger_cases (s : State) :
    (s.halt ≠ .none ∧ s.triggered = s.haltedTick ∧ s.tick = s.haltedTick) ∨
    (s.halt = .none ∧ s.seq ≠ .idle ∧ s.triggered = s.overrun ∧ s.tick = s.overrun) ∨
    (s.halt = .none ∧ s.seq = .idle ∧ s.triggered = s.tickStart ∧ s.tick = s.tickStart.sevenSteps) := by
  unfold State.triggered State.tick
  by_cases hrun : s.halt = .none
  · rw [if_pos hrun, if_pos hrun]
    by_cases hidle : s.seq = .idle
    · exact .inr (.inr ⟨hrun, hidle, if_pos hidle, if_pos hidle⟩)
    · exact .inr (.inl ⟨hrun, hidle, if_neg hidle, if_neg hidle⟩)
  · exact .inl ⟨hrun, if_neg hrun, if_neg hrun⟩

/-- A tick triggered during a tick does what the code of its error does (R198). -/
theorem overrun_effect (s : State) : Effect s .tickOverrun s.overrun :=
  .raiseFatal (.inl (by simp)) nofun

/-- Everything the execution of one instruction can do. -/
theorem exec_cases {i : Instr} {s t : State} (h : exec i s = .next t) :
    s.sameBlock t ∨ (i = .reset ∧ t = s.afterReset) ∨ (s.halt = .none ∧ Effect s i t) ∨
    (i = .tick ∧ s.halt = .none ∧
      (Effect s .tickOverrun t ∨ (s.seq = .idle ∧ t = s.tickStart.sevenSteps))) := by
  by_cases hsil : silenced i = true
  · by_cases hrun : s.halt = .none
    · obtain ⟨u, hu, heff⟩ := silenced_effect hrun hsil
      cases hu.symm.trans h
      exact heff.imp_right fun he => .inr (.inl ⟨hrun, he⟩)
    · cases (exec_silenced hsil hrun).symm.trans h
      exact .inl (s.sameBlock_answer _)
  · by_cases htick : i = .tick
    · subst htick
      cases h
      rcases trigger_cases s with ⟨-, -, ht⟩ | ⟨hrun, -, -, ht⟩ | ⟨hrun, hidle, -, ht⟩ <;> rw [ht]
      · exact .inl rfl
      · exact .inr (.inr (.inr ⟨rfl, hrun, .inl (overrun_effect s)⟩))
      · exact .inr (.inr (.inr ⟨rfl, hrun, .inr ⟨hidle, rfl⟩⟩))
    · by_cases hreset : i = .reset
      · subst hreset
        cases h
        exact .inr (.inl ⟨rfl, rfl⟩)
      · obtain ⟨r, hr⟩ := exec_unsilenced s (Bool.eq_false_of_not_eq_true hsil) htick hreset
        cases hr.symm.trans h
        exact .inl (s.sameBlock_answer _)

/-! ### What one step does -/

/-- An operation that is no step of the tick stands at the head of the schedule. -/
def Direct (s : State) (i : Instr) : Prop :=
  i.place = none → dueSeq i = none → s.schedule.head? = some (.op i)

theorem direct_of_dueSeq (s : State) {i : Instr} {q : Seq} (h : dueSeq i = some q) : Direct s i :=
  fun _ h' => nomatch h.symm.trans h'

theorem direct_of_origin {s : State} {i : Instr} (h : Origin s i) : Direct s i := by
  rcases h with h | h | h
  · exact fun _ _ => h
  · exact fun hp _ => absurd hp h
  · exact direct_of_dueSeq s (dueInstr_ok h s.cfg.toRawConfig).2

theorem Direct.schedule {s : State} {i : Instr} (h : Direct s i) (hp : i.place = none)
    (hd : dueSeq i = none) : ∃ es, s.schedule = .op i :: es :=
  List.head?_eq_some_iff.mp (h hp hd)

/-- Everything a step with a next state can be. -/
inductive StepKind (s t : State) : Prop
  /-- no register changes -/
  | same (h : s.sameBlock t)
  | reset {es : List Event} (hs : s.schedule = .op .reset :: es) (ht : t = s.eventTaken.afterReset)
  | effect (i : Instr) (hrun : s.halt = .none) (hdir : Direct s i)
      (hwf : i.wellFormed s.cfg.toRawConfig = true) (hdue : s.stepDue i = true)
      (he : Effect s.eventTaken i t)
  /-- a trigger starts a tick -/
  | start (hrun : s.halt = .none) (hidle : s.seq = .idle) (ht : t = s.eventTaken.tickStart)
  /-- TICK runs as one operation -/
  | tick (hrun : s.halt = .none) (hidle : s.seq = .idle) (ht : t = s.eventTaken.tickStart.sevenSteps)

/-- A tick triggered during a tick is a step of the kind `effect`. -/
theorem stepKind_overrun {s t : State} (hrun : s.halt = .none) (he : Effect s.eventTaken .tickOverrun t) :
    StepKind s t :=
  .effect .tickOverrun hrun (fun hp _ => nomatch hp) rfl rfl he

theorem stepKind_of_step {s t : State} (h : step s = .next t) : StepKind s t := by
  obtain ⟨u, rfl, rfl | ⟨i, ho, hwf, hdue, hx⟩ | rfl | ⟨p, -, rfl⟩⟩ := step_cases h
  · exact .same s.sameBlock_eventTaken
  · have hdir := direct_of_origin ho
    rcases exec_cases hx with hsame | ⟨rfl, ht⟩ | ⟨hrun, he⟩ | ⟨rfl, hrun, he | ⟨hidle, ht⟩⟩
    · exact .same (s.sameBlock_eventTaken.trans hsame)
    · obtain ⟨es, hs⟩ := hdir.schedule rfl rfl
      exact .reset hs ht
    · exact .effect i hrun hdir hwf hdue he
    · exact stepKind_overrun hrun he
    · exact .tick hrun hidle ht
  · change StepKind s s.eventTaken.triggered
    rcases trigger_cases s.eventTaken with ⟨-, ht, -⟩ | ⟨hrun, -, ht, -⟩ | ⟨hrun, hidle, ht, -⟩ <;>
      rw [ht]
    · exact .same rfl
    · exact stepKind_overrun hrun (overrun_effect _)
    · exact .start hrun hidle rfl
  · exact .same rfl

theorem Effect.cfg {s t : State} {i : Instr} (h : Effect s i t) : t.cfg = s.cfg := by
  cases h <;> rfl

/-- T4 that does not halt the block goes on to T5 (R132). -/
theorem State.t4_seq {s : State} (h : s.t4.halt = .none) : s.t4.seq = .t5 := by
  obtain ⟨eb, -, e | e⟩ := State.t4_cases s
  · rw [e]
  · rw [e] at h
    exact absurd h nofun

/-- The seven steps of a tick keep what the effect of each of them, in its order, keeps. -/
theorem sevenSteps_keeps {P : State → Prop} {s : State} (hrun : s.halt = .none) (hseq : s.seq = .t1)
    (act : ∀ i q u v, dueInstr q = some i → u.halt = .none → u.cfg = s.cfg → u.seq = q →
      Effect u i v → P u → P v)
    (hs : P s) : P s.sevenSteps := by
  have h1 : P s.t1 := act .tickT1 .t1 _ _ rfl hrun rfl hseq (.of_t1 _) hs
  have h2 : P s.t1.t2 := act .tickT2 .t2 _ _ rfl (by simpa) (by simp) (by simp) .t2 h1
  have h3 : P s.t1.t2.t3 := act .tickT3 .t3 _ _ rfl (by simpa) (by simp) (by simp) .t3 h2
  have h4 : P s.t1.t2.t3.t4 := act .tickT4 .t4 _ _ rfl (by simpa) (by simp) (by simp) (.of_t4 _) h3
  rcases State.sevenSteps_cases hrun with ⟨hh, h7⟩ | ⟨-, -, h7⟩ <;> rw [h7]
  · have hq : s.t1.t2.t3.t4.seq = .t5 := State.t4_seq hh
    have h5 := act .tickT5 .t5 _ _ rfl hh (by simp) hq .t5 h4
    have h6 := act .tickT6 .t6 _ _ rfl (by simpa) (by simp) (by simp) .t6 h5
    exact act .tickT7 .t7 _ _ rfl (by simpa) (by simp) (by simp) (.of_t7 _) h6
  · exact h4

/-- What an unchanged block, the effect of an instruction, the start of a tick and a reset keep, every
step keeps. -/
theorem step_keeps {P : State → Prop} {s t : State}
    (same : ∀ {u v : State}, u.sameBlock v → P u → P v)
    (act : ∀ {i : Instr} {u v : State}, u.halt = .none → u.cfg = s.cfg → Direct s i →
      i.wellFormed s.cfg.toRawConfig = true → u.stepDue i = true → Effect u i v → P u → P v)
    (start : ∀ {u : State}, u.halt = .none → u.seq = .idle → P u → P u.tickStart)
    (reset : (∃ es, s.schedule = .op .reset :: es) → P (State.resetIn s.cfg))
    (hs : P s) (h : step s = .next t) : P t := by
  have hu : P s.eventTaken := same s.sameBlock_eventTaken hs
  cases stepKind_of_step h with
  | same h => exact same h hs
  | reset hs ht => exact ht ▸ same (State.sameBlock_afterReset _) (reset ⟨_, hs⟩)
  | effect i hrun hdir hwf hdue he => exact act (u := s.eventTaken) hrun rfl hdir hwf hdue he hu
  | start hrun hidle ht => exact ht ▸ start hrun hidle hu
  | tick hrun hidle ht =>
    rw [ht]
    refine sevenSteps_keeps hrun rfl (fun i q u v hi hr hc hseq he hP => ?_) (start hrun hidle hu)
    obtain ⟨hwf, hq⟩ := dueInstr_ok hi s.cfg.toRawConfig
    exact act hr hc (direct_of_dueSeq s hq) hwf (by simp [State.stepDue, hq, hseq]) he hP

/-! ### Each register: who writes it, and what -/

theorem forall_mem_iff_getD {α : Type} {l : List α} {d : α} {Q : α → Prop} (hd : Q d) :
    (∀ x ∈ l, Q x) ↔ ∀ i, Q (l.getD i d) := by
  refine ⟨fun h i => ?_, fun h x hx => ?_⟩
  · by_cases hi : i < l.length
    · rw [List.getD_eq_getElem l d hi]
      exact h _ (List.getElem_mem hi)
    · rw [List.getD_eq_default l d (Nat.le_of_not_lt hi)]
      exact hd
  · obtain ⟨i, hi, rfl⟩ := List.getElem_of_mem hx
    rw [← List.getD_eq_getElem l d hi]
    exact h i

theorem perLink_nextLive_le (c : RawConfig) (d : Nat) (f n : Nat → Nat) :
    ∀ x ∈ perLink d fun j => nextLive c (f j) (n j), x ≤ c.liveMax := by
  intro x hx
  obtain ⟨j, -, rfl⟩ := mem_perLink.mp hx
  unfold nextLive
  split <;> omega

theorem perLink_countUp_lt (c : RawConfig) (d : Nat) (f n : Nat → Nat) :
    ∀ x ∈ perLink d fun j => countUp c (f j) (n j), x < 2 ^ c.cntBits := by
  intro x hx
  obtain ⟨j, -, rfl⟩ := mem_perLink.mp hx
  exact Nat.mod_lt _ (by positivity)

theorem ebPop_snd (q : List Message) : (ebPop q).2 = q.tail := by
  cases q <;> rfl

/-- A burst of pushes appends a part of the burst, and no more than there is room for. -/
theorem pushAll_append (c : RawConfig) (q ms : List Message) :
    ∃ k, (pushAll c q ms).1 = q ++ ms.take k ∧
      (q.length ≤ c.b → (q ++ ms.take k).length ≤ c.b) := by
  by_cases h : q.length ≤ c.b
  · refine ⟨c.b - q.length, by rw [pushAll_eq c ms q h], fun _ => ?_⟩
    rw [List.length_append, List.length_take]
    omega
  · refine ⟨0, ?_, fun h' => absurd h' h⟩
    cases ms with
    | nil => simp [pushAll]
    | cons m ms => simp [pushAll, ebPush, Nat.le_of_not_le h]

namespace State

theorem ebAt_setEb_cases (s : State) (l : Nat) (q : List Message) (j : Nat) :
    (s.setEb l q).ebAt j = s.ebAt j ∨ (l = j ∧ (s.setEb l q).ebAt j = q) := by
  by_cases hl : l < s.eb.length
  · rw [ebAt_setEb q hl]
    by_cases hj : j = l
    · exact .inr ⟨hj.symm, if_pos hj⟩
    · exact .inl (if_neg hj)
  · exact .inl (by rw [setEb, List.set_eq_of_length_le (Nat.le_of_not_lt hl)])

/-- `q'` is the buffer `q` with Messages that meet `Q` appended, within B if `q` was. -/
def Grows (s : State) (Q : Message → Prop) (q q' : List Message) : Prop :=
  ∃ ms, q' = q ++ ms ∧ (∀ m ∈ ms, Q m) ∧ (q.length ≤ s.cfg.b → q'.length ≤ s.cfg.b)

theorem Grows.trans {s : State} {Q : Message → Prop} {q q' q'' : List Message} (h : s.Grows Q q q')
    (h' : s.Grows Q q' q'') : s.Grows Q q q'' := by
  obtain ⟨ms, rfl, hm, hb⟩ := h
  obtain ⟨ms', rfl, hm', hb'⟩ := h'
  exact ⟨ms ++ ms', List.append_assoc .., fun m h => (List.mem_append.mp h).elim (hm m) (hm' m),
    fun h => hb' (hb h)⟩

/-- What one fill of link `i` does to the buffer of link `j`. -/
theorem ebAt_fillLink (s : State) (i j : Nat) (he : s.enabled i = true) :
    let t := s.setEb i (pushAll s.cfg.toRawConfig (s.ebAt i) (s.rxmAt i)).1
    t.ebAt j = s.ebAt j ∨
      (s.enabled j = true ∧ s.Grows (· ∈ s.rxmAt j) (s.ebAt j) (t.ebAt j)) := by
  obtain ⟨k, hk, hb⟩ := pushAll_append s.cfg.toRawConfig (s.ebAt i) (s.rxmAt i)
  rw [hk]
  rcases s.ebAt_setEb_cases i (s.ebAt i ++ (s.rxmAt i).take k) j with h | ⟨rfl, h⟩
  · exact .inl h
  · exact .inr ⟨he, _, h, fun m hm => List.mem_of_mem_take hm,
      fun hle => (congrArg List.length h).trans_le (hb hle)⟩

/-- T4's fill leaves a buffer, or appends Messages its enabled link received (R132, R133). -/
theorem ebAt_fillLinks (is : List Nat) (s : State) (j : Nat) :
    (s.fillLinks is).1.ebAt j = s.ebAt j ∨
      (s.enabled j = true ∧ s.Grows (· ∈ s.rxmAt j) (s.ebAt j) ((s.fillLinks is).1.ebAt j)) := by
  induction is generalizing s with
  | nil => exact .inl rfl
  | cons i is ih =>
    by_cases he : s.enabled i = true
    · have hi := s.ebAt_fillLink i j he
      simp only [fillLinks, he, if_true]
      rcases hp : pushAll s.cfg.toRawConfig (s.ebAt i) (s.rxmAt i) with ⟨q, _ | _⟩ <;> rw [hp] at hi
      · rcases hi with hi | ⟨hej, hi⟩ <;> rcases ih (s.setEb i q) with h | ⟨hej', h⟩
        · exact .inl (h.trans hi)
        · exact .inr ⟨hej', hi ▸ h⟩
        · exact .inr ⟨hej, by simpa only [h] using hi⟩
        · exact .inr ⟨hej, hi.trans h⟩
      · exact hi
    · rw [fillLinks, if_neg he]
      exact ih s

/-- T5's drain leaves a buffer, or takes the front of an enabled link's (R134). -/
theorem drained_snd (s : State) (j : Nat) :
    (s.drained j).2 = if s.enabled j then (s.ebAt j).tail else s.ebAt j := by
  unfold drained
  split
  · exact ebPop_snd _
  · rfl

end State

namespace Effect

variable {s t : State} {i : Instr}

/-- The four instructions that write a buffer. -/
theorem eb_cases (h : Effect s i t) :
    t.eb = s.eb ∨ i ∈ [Instr.tickT4, .tickT5] ∨ (∃ l m, i = .ebPush l m) ∨ ∃ l, i = .ebPop l := by
  cases h with
  | push m => exact .inr (.inr (.inl ⟨_, m, rfl⟩))
  | pop l => exact .inr (.inr (.inr ⟨l, rfl⟩))
  | t4 | overflow | t5 => exact .inr (.inl (by simp))
  | _ => exact .inl rfl

/-- What can become of the buffer of a link: it stays, loses Messages at its front, or grows by Messages
its link received or an EB_PUSH brings. -/
theorem ebAt_cases (h : Effect s i t) (j : Nat) :
    t.ebAt j = s.ebAt j ∨
    (t.ebAt j <:+ s.ebAt j ∧ (s.enabled j = true ∨ i = .ebPop j ∨ s.cfg.degree ≤ j)) ∨
    (s.enabled j = true ∧ s.Grows (· ∈ s.rxmAt j) (s.ebAt j) (t.ebAt j)) ∨
    ∃ m, i = .ebPush j m ∧ s.Grows (· = m) (s.ebAt j) (t.ebAt j) := by
  cases h with
  | @push l m hroom =>
    rcases s.ebAt_setEb_cases l (s.ebAt l ++ [m]) j with h | ⟨rfl, h⟩
    · exact .inl h
    · exact .inr (.inr (.inr ⟨m, rfl, [m], h, by simp, fun _ => by
        change ((s.setEb l (s.ebAt l ++ [m])).ebAt l).length ≤ s.cfg.b
        rw [h]; simpa using hroom⟩))
  | pop l =>
    rcases s.ebAt_setEb_cases l (ebPop (s.ebAt l)).2 j with h | ⟨rfl, h⟩
    · exact .inl h
    · exact .inr (.inl ⟨by
        change (s.setEb l (ebPop (s.ebAt l)).2).ebAt l <:+ s.ebAt l
        rw [h, ebPop_snd]; exact List.tail_suffix _, .inr (.inl rfl)⟩)
  | t4 | overflow =>
    rcases s.ebAt_fillLinks s.links j with h | h
    · exact .inl h
    · exact .inr (.inr (.inl h))
  | t5 =>
    have h : s.t5.ebAt j = if j < s.cfg.degree then (s.drained j).2 else [] := getD_perLink ..
    rw [h, State.drained_snd]
    by_cases hj : j < s.cfg.degree
    · rw [if_pos hj]
      by_cases he : s.enabled j = true
      · rw [if_pos he]
        exact .inr (.inl ⟨List.tail_suffix _, .inl he⟩)
      · rw [if_neg he]
        exact .inl rfl
    · rw [if_neg hj]
      exact .inr (.inl ⟨List.nil_suffix, .inr (.inr (Nat.le_of_not_lt hj))⟩)
  | _ => exact .inl rfl

theorem eb_length (h : Effect s i t) :
    t.eb.length = s.eb.length ∨ t.eb.length = s.cfg.degree := by
  cases h with
  | push | pop => exact .inl (List.length_set ..)
  | t4 | overflow => exact .inl (State.fillLinks_length ..)
  | t5 => exact .inr (length_perLink ..)
  | _ => exact .inl rfl

/-- LIVE is written by T3 and LT_READ, by R113. -/
theorem live_cases (h : Effect s i t) :
    t.live = s.live ∨ (i ∈ [Instr.tickT3, .ltRead] ∧ ∃ n : Nat → Nat,
      t.live = perLink s.cfg.degree fun j => nextLive s.cfg.toRawConfig (s.liveAt j) (n j)) := by
  cases h with
  | ltRead | t3 => exact .inr ⟨by simp, _, rfl⟩
  | _ => exact .inl rfl

/-- RXM and its counters are written by T3, by R129 and R130. -/
theorem received_cases (h : Effect s i t) :
    (t.syncCnt = s.syncCnt ∧ t.dataCnt = s.dataCnt ∧ t.rxm = s.rxm) ∨
    (i = .tickT3 ∧ t.rxm = perLink s.cfg.degree s.received ∧
      (∃ n : Nat → Nat,
        t.syncCnt = perLink s.cfg.degree fun j => countUp s.cfg.toRawConfig (s.syncCntAt j) (n j)) ∧
      ∃ n : Nat → Nat,
        t.dataCnt = perLink s.cfg.degree fun j => countUp s.cfg.toRawConfig (s.dataCntAt j) (n j)) := by
  cases h with
  | t3 => exact .inr ⟨rfl, rfl, ⟨_, rfl⟩, _, rfl⟩
  | _ => exact .inl ⟨rfl, rfl, rfl⟩

/-- EMPTY_CNT is written by T5, by R137. -/
theorem emptyCnt_cases (h : Effect s i t) :
    t.emptyCnt = s.emptyCnt ∨ (i = .tickT5 ∧ ∃ n : Nat → Nat,
      t.emptyCnt = perLink s.cfg.degree fun j => countUp s.cfg.toRawConfig (s.emptyCntAt j) (n j)) := by
  cases h with
  | t5 => exact .inr ⟨rfl, _, rfl⟩
  | _ => exact .inl rfl

/-- The PID state is written by PID_RUN, which FC_RUN and T7 call. -/
theorem pid_cases (h : Effect s i t) :
    (t.prevErr = s.prevErr ∧ t.integ = s.integ) ∨
    (i = .tickT7 ∨ (∃ ls, i = .fcRun ls) ∨ ∃ a b, i = .pidRun a b) := by
  cases h with
  | t7 => exact .inr (.inl rfl)
  | fcRun ls => exact .inr (.inr (.inl ⟨ls, rfl⟩))
  | pidMove a b => exact .inr (.inr (.inr ⟨a, b, rfl⟩))
  | _ => exact .inl ⟨rfl, rfl⟩

/-- DIV_STATE and LAST_CORR are written by FC_RUN, which T7 calls. -/
theorem divider_cases (h : Effect s i t) :
    (t.divState = s.divState ∧ t.lastCorr = s.lastCorr) ∨ (i = .tickT7 ∨ ∃ ls, i = .fcRun ls) := by
  cases h with
  | t7 => exact .inr (.inl rfl)
  | fcRun ls => exact .inr (.inr ⟨ls, rfl⟩)
  | _ => exact .inl ⟨rfl, rfl⟩

/-- FC_DEGREE is written by T7, with the live-link count, and by FC_SET_DEGREE. -/
theorem fcDegree_cases (h : Effect s i t) :
    t.fcDegree = s.fcDegree ∨ (i = .tickT7 ∧ t.fcDegree = s.liveCount) ∨
      ∃ d, i = .fcSetDegree d ∧ t.fcDegree = d := by
  cases h with
  | t7 => exact .inr (.inl ⟨rfl, rfl⟩)
  | fcSetDegree d => exact .inr (.inr ⟨d, rfl, rfl⟩)
  | _ => exact .inl rfl

end Effect

namespace State

/-- T1 rejects the producer's word, or stages it, or finds none (R122 to R125). -/
theorem t1_cases (s : State) :
    (s.t1.out = s.out ∧
      (s.t1.result = s.result ∨ ∃ e, e ≠ .decodeError ∧ s.t1.result = (s.raise e).result)) ∨
    (s.t1.result = s.result ∧ ∃ n p, (Message.data n p).fits s.cfg.toRawConfig = true ∧
      s.t1.out = s.out.set n (.data n p)) := by
  unfold t1
  cases h : s.ports.user with
  | none => simp only [userRead, h]; exact .inl ⟨rfl, .inl rfl⟩
  | some w =>
    have hfits := decodeMessage_fits s.cfg.toRawConfig w
    simp only [userRead, h, ingest]
    cases hd : decodeMessage s.cfg.toRawConfig w with
    | sync => exact .inl ⟨rfl, .inr ⟨.syncMessageFromUserCode, nofun, rfl⟩⟩
    | data n p =>
      rw [hd] at hfits
      by_cases hn : s.cfg.degree ≤ n
      · simp only [hn, if_true]
        exact .inl ⟨rfl, .inr ⟨.invalidNeighbor, nofun, rfl⟩⟩
      · simp only [hn, if_false]
        exact .inr ⟨rfl, n, p, hfits, rfl⟩

/-- Raising an error a block can raise does not give `DecodeError` (R191). -/
theorem raise_result_ne {s : State} {e : ResultCode} (hs : s.result ≠ .decodeError)
    (he : e ≠ .decodeError) : (s.raise e).result ≠ .decodeError := by
  rw [raise_result]
  split <;> assumption

theorem t7Result_ne {s : State} (b : Bool) (hs : s.result ≠ .decodeError) :
    s.t7Result b ≠ .decodeError := by
  unfold t7Result
  split
  · exact hs
  · exact raise_result_ne (e := .frequencyControllerError) hs nofun

end State

/-- The instructions that can halt the block. -/
def haltWriter (i : Instr) : Prop :=
  i ∈ [Instr.tickT4, .tideFifoFull, .tickOverrun] ∨ ∃ l m, i = .ebPush l m

/-- The instructions that can halt the block are among the writers `l` allows. -/
theorem haltWriter.mono {i : Instr} {l : List Instr} (h : haltWriter i)
    (hl : [Instr.tickT4, .tideFifoFull, .tickOverrun] ⊆ l) : i ∈ l ∨ ∃ k m, i = .ebPush k m :=
  h.imp_left fun h => hl h

theorem raisesFatal.haltWriter {i : Instr} (h : raisesFatal i) : haltWriter i :=
  h.imp_left (List.mem_cons_of_mem _)

/-- The instructions that write RESULT (R28). -/
def resultWriter (i : Instr) : Prop :=
  i ∈ [Instr.tickT1, .tickT4, .tickT7, .userSync, .syncMessageFromUserCode, .invalidNeighbor,
    .frequencyControllerError, .tideFifoFull, .tickOverrun] ∨
  (∃ n p g, i = .userBadnbr n p g) ∨ ∃ l m, i = .ebPush l m

theorem raisesRecoverable.resultWriter {i : Instr} (h : raisesRecoverable i) : resultWriter i := by
  rcases h with h | h
  · exact .inl (by simp only [List.mem_cons] at h ⊢; tauto)
  · exact .inr (.inl h)

theorem haltWriter.resultWriter {i : Instr} (h : haltWriter i) : resultWriter i :=
  (h.mono (by simp)).imp_right .inr

/-- Each step of the tick with the `STEP` it belongs to and the one that follows (R22). -/
def tickOrder : List (Instr × Seq × Seq) :=
  [(.tickT1, .t1, .t2), (.tickT2, .t2, .t3), (.tickT3, .t3, .t4), (.tickT4, .t4, .t5),
    (.tickT5, .t5, .t6), (.tickT6, .t6, .t7), (.tickT7, .t7, .idle)]

theorem dueSeq_of_mem_tickOrder {i : Instr} {q q' : Seq} (h : (i, q, q') ∈ tickOrder) :
    dueSeq i = some q := by
  simp only [tickOrder, List.mem_cons, List.not_mem_nil, or_false, Prod.mk.injEq] at h
  rcases h with ⟨rfl, rfl, -⟩ | ⟨rfl, rfl, -⟩ | ⟨rfl, rfl, -⟩ | ⟨rfl, rfl, -⟩ | ⟨rfl, rfl, -⟩ |
    ⟨rfl, rfl, -⟩ | ⟨rfl, rfl, -⟩ <;> rfl

theorem State.seq_of_stepDue {s : State} {i : Instr} {q : Seq} (h : s.stepDue i = true)
    (hq : dueSeq i = some q) : s.seq = q := by
  simpa [State.stepDue, hq] using h

namespace Effect

variable {s t : State} {i : Instr}

/-- OUT is written by T1, with a Message DECODE gave, and by USER.DATA. -/
theorem out_cases (h : Effect s i t) :
    t.out = s.out ∨ ∃ n p, t.out = s.out.set n (.data n p) ∧
      ((i = .tickT1 ∧ (Message.data n p).fits s.cfg.toRawConfig = true) ∨
        ∃ g, i = .userData n p g) := by
  cases h with
  | stage n p g => exact .inr ⟨n, p, rfl, .inr ⟨g, rfl⟩⟩
  | t1 =>
    rcases s.t1_cases with ⟨ho, -⟩ | ⟨-, n, p, hfits, ho⟩
    · exact .inl ho
    · exact .inr ⟨n, p, ho, .inl ⟨rfl, hfits⟩⟩
  | _ => exact .inl rfl

/-- RESULT is never made `DecodeError` (R191). -/
theorem result_cases (h : Effect s i t) :
    t.result = s.result ∨
      (resultWriter i ∧ (s.result ≠ .decodeError → t.result ≠ .decodeError)) := by
  cases h with
  | raise r hi he => exact .inr ⟨hi.resultWriter, fun hs => State.raise_result_ne hs he⟩
  | @raiseFatal _ cause hi hc =>
    exact .inr ⟨hi.haltWriter.resultWriter, fun _ => by cases cause <;> nofun⟩
  | overflow => exact .inr ⟨.inl (by simp), fun _ => nofun⟩
  | t1 =>
    refine .inr ⟨.inl (by simp), fun hs => ?_⟩
    change s.t1.result ≠ .decodeError
    rcases s.t1_cases with ⟨-, hr | ⟨e, he, hr⟩⟩ | ⟨hr, -⟩ <;> rw [hr]
    · exact hs
    · exact State.raise_result_ne hs he
    · exact hs
  | t7 => exact .inr ⟨.inl (by simp), fun hs => State.t7Result_ne _ hs⟩
  | _ => exact .inl rfl

/-- `STEP` moves by a step of the tick in its order, or to `IDLE` with a halt. -/
theorem seq_cases (h : Effect s i t) :
    t.seq = s.seq ∨ (∃ q, (i, q, t.seq) ∈ tickOrder) ∨
      (haltWriter i ∧ t.seq = .idle ∧ t.halt ≠ .none) := by
  cases h with
  | raiseFatal hi hc => exact .inr (.inr ⟨hi.haltWriter, rfl, hc⟩)
  | overflow => exact .inr (.inr ⟨.inl (by simp), rfl, nofun⟩)
  | t1 | t2 | t3 | t4 | t5 | t6 | t7 => exact .inr (.inl ⟨_, by simp [tickOrder]; rfl⟩)
  | _ => exact .inl rfl

/-- HALT, LAST_ERROR and the snapshots are written by a fatal error, by T6 and by T7 alone. -/
theorem record_cases (h : Effect s i t) :
    (t.halt = s.halt ∧ t.lastError = s.lastError ∧ t.snap = s.snap ∧ t.boundary = s.boundary ∧
      (s.stepDue i = true → (t.seq = .t7 ↔ s.seq = .t7))) ∨
    (haltWriter i ∧ ∃ (u : State) (cause : HaltCause), cause ≠ .none ∧ t = u.raiseFatal cause) ∨
    (i = .tickT6 ∧ t = s.t6) ∨ (i = .tickT7 ∧ t = s.t7) := by
  cases h with
  | raiseFatal hi hc => exact .inr (.inl ⟨hi.haltWriter, s, _, hc, rfl⟩)
  | overflow => exact .inr (.inl ⟨.inl (by simp), _, .tideFifoFull, nofun, rfl⟩)
  | t6 => exact .inr (.inr (.inl ⟨rfl, rfl⟩))
  | t7 => exact .inr (.inr (.inr ⟨rfl, s.t7_eq.symm⟩))
  | t1 | t2 | t3 | t4 | t5 =>
    exact .inl ⟨rfl, rfl, rfl, rfl, fun hdue =>
      iff_of_false nofun fun h => nomatch (State.seq_of_stepDue hdue rfl).symm.trans h⟩
  | _ => exact .inl ⟨rfl, rfl, rfl, rfl, fun _ => Iff.rfl⟩

/-- The writers of HALT, LAST_ERROR and the snapshots (R29, R36, R37). -/
theorem record_writers (h : Effect s i t) :
    (t.halt ≠ s.halt → haltWriter i) ∧
    (t.lastError ≠ s.lastError →
      i ∈ [Instr.tickT4, .tickT7, .tideFifoFull, .tickOverrun] ∨ ∃ l m, i = .ebPush l m) ∧
    (t.snap ≠ s.snap →
      i ∈ [Instr.tickT4, .tickT6, .tickT7, .tideFifoFull, .tickOverrun] ∨ ∃ l m, i = .ebPush l m) ∧
    (t.boundary ≠ s.boundary →
      i ∈ [Instr.tickT4, .tickT7, .tideFifoFull, .tickOverrun] ∨ ∃ l m, i = .ebPush l m) := by
  rcases h.record_cases with ⟨hh, hl, hs, hb, -⟩ | ⟨hw, -⟩ | ⟨rfl, rfl⟩ | ⟨rfl, rfl⟩
  · exact ⟨fun h => absurd hh h, fun h => absurd hl h, fun h => absurd hs h, fun h => absurd hb h⟩
  · exact ⟨fun _ => hw, fun _ => hw.mono (by simp), fun _ => hw.mono (by simp),
      fun _ => hw.mono (by simp)⟩
  · exact ⟨fun h => absurd rfl h, fun h => absurd rfl h, fun _ => .inl (by simp), fun h => absurd rfl h⟩
  · exact ⟨fun h => absurd s.t7_halt h, fun _ => .inl (by simp), fun _ => .inl (by simp),
      fun _ => .inl (by simp)⟩

end Effect

/-! ### The invariant, part by part -/

namespace State

theorem levelsOk_iff {s : State} : s.LevelsOk ↔ ∀ j, (s.ebAt j).length ≤ s.cfg.b :=
  forall_mem_iff_getD (Nat.zero_le _)

theorem ebFits_iff {s : State} :
    (∀ q ∈ s.eb, ∀ m ∈ q, m.fits s.cfg.toRawConfig) ↔ ∀ j, ∀ m ∈ s.ebAt j, m.fits s.cfg.toRawConfig :=
  forall_mem_iff_getD (by simp)

theorem rxmFits_iff {s : State} :
    (∀ q ∈ s.rxm, ∀ m ∈ q, m.fits s.cfg.toRawConfig) ↔
      ∀ j, ∀ m ∈ s.rxmAt j, m.fits s.cfg.toRawConfig :=
  forall_mem_iff_getD (by simp)

theorem rxmAt_of_rxm {s t : State} (h : t.rxm = perLink s.cfg.degree s.received) (j : Nat) :
    t.rxmAt j = if j < s.cfg.degree then s.received j else [] := by
  rw [rxmAt, h, getD_perLink]

/-- A received Message fits its fields and carries its link's number (R129). -/
theorem received_ok {s : State} {j : Nat} (hj : j < s.cfg.degree) {m : Message}
    (hm : m ∈ s.received j) : m.fits s.cfg.toRawConfig = true ∧ m.taggedFor j = true := by
  obtain ⟨w, -, rfl⟩ := List.mem_map.mp hm
  have hfits := decodeMessage_fits s.cfg.toRawConfig w
  cases hd : decodeMessage s.cfg.toRawConfig w with
  | sync => exact ⟨rfl, rfl⟩
  | data n p =>
    rw [hd] at hfits
    obtain ⟨⟨-, hdeg⟩, -⟩ := s.cfg.wf
    simp only [Message.fits, Bool.and_eq_true, decide_eq_true_eq] at hfits
    simp only [retag, Message.fits, Message.taggedFor, Bool.and_eq_true, decide_eq_true_eq, beq_self_eq_true]
    exact ⟨⟨by omega, hfits.2⟩, trivial⟩

/-- FC_RUN keeps the controller registers in their ranges (R152 to R155, R170). -/
theorem ControlOk.fcRun {s : State} (h : s.ControlOk) (ls : List Nat) : (s.fcRun ls).2.ControlOk := by
  obtain ⟨hprev, hinteg, hcorr, hdiv⟩ := h
  rcases s.fcRun_cases ls with hr | ⟨e, he, hr⟩ <;> rw [hr]
  · exact ⟨hprev, hinteg, hcorr, hdiv⟩
  · have hi := clampFx_isFx s.cfg.toRawConfig (s.integ + e)
    have hc : s.cfg.isFx (s.pidValue e) := clampFx_isFx _ _
    have hd := fcCandidate_bounds s.cfg s.divState (s.pidValue e)
    rcases fcApply_cases ((s.pidMove e).setLastCorr (s.pidValue e))
      (fcCandidate s.cfg.toRawConfig s.divState (s.pidValue e)) with ⟨-, hr⟩ | ⟨-, hr⟩ | ⟨-, hr⟩ <;> rw [hr]
    · exact ⟨he, hi, hc, hd⟩
    · exact ⟨he, hi, hc, hd⟩
    · exact ⟨he, hi, hc, hdiv⟩

theorem errorsOk_raiseFatal (s : State) (cause : HaltCause) : (s.raiseFatal cause).ErrorsOk where
  idle _ := rfl
  cause _ := rfl
  snapHalt := rfl
  snapError := rfl
  lastError := by cases cause <;> nofun
  result := by cases cause <;> nofun

theorem snapOk_raiseFatal (s : State) (cause : HaltCause) : (s.raiseFatal cause).SnapOk :=
  ⟨fun _ => rfl, rfl⟩

theorem ErrorsOk.t7 {s : State} (h : s.ErrorsOk) (hrun : s.halt = .none) : s.t7.ErrorsOk := by
  have hr := t7Result_ne ((s.fcSetDegree s.liveCount).fcRun s.levels).1 h.result
  rw [t7_eq]
  refine ⟨fun _ => rfl, fun hne => absurd hrun hne, h.snapHalt, ?_, ?_, hr⟩
  · simp only [t7Snap, h.snapError]
  · dsimp only
    split
    · exact h.lastError
    · exact hr

theorem snapOk_t7 (s : State) : s.t7.SnapOk := by
  rw [t7_eq]
  exact ⟨fun _ => rfl, rfl⟩

end State

namespace Effect

variable {s t : State} {i : Instr}

theorem shapeOk (h : Effect s i t) (hs : s.ShapeOk) : t.ShapeOk := by
  have hc := h.cfg
  refine ⟨?_, ?_, ?_, ?_, ?_, ?_, ?_⟩ <;> rw [hc]
  · rcases h.eb_length with he | he <;> rw [he]
    exact hs.eb
  · rcases h.live_cases with he | ⟨-, n, he⟩ <;> rw [he]
    · exact hs.live
    · exact length_perLink ..
  · rcases h.received_cases with ⟨he, -, -⟩ | ⟨-, -, ⟨n, he⟩, -⟩ <;> rw [he]
    · exact hs.syncCnt
    · exact length_perLink ..
  · rcases h.received_cases with ⟨-, he, -⟩ | ⟨-, -, -, n, he⟩ <;> rw [he]
    · exact hs.dataCnt
    · exact length_perLink ..
  · rcases h.emptyCnt_cases with he | ⟨-, n, he⟩ <;> rw [he]
    · exact hs.emptyCnt
    · exact length_perLink ..
  · rcases h.out_cases with he | ⟨n, p, he, -⟩ <;> rw [he]
    · exact hs.out
    · rw [List.length_set, hs.out]
  · rcases h.received_cases with ⟨-, -, he⟩ | ⟨-, he, -⟩ <;> rw [he]
    · exact hs.rxm
    · exact length_perLink ..

theorem levelsOk (h : Effect s i t) (hs : s.LevelsOk) : t.LevelsOk := by
  rw [State.levelsOk_iff] at hs ⊢
  intro j
  rw [h.cfg]
  rcases h.ebAt_cases j with he | ⟨he, -⟩ | ⟨-, ms, -, -, hb⟩ | ⟨m, -, ms, -, -, hb⟩
  · exact he ▸ hs j
  · exact he.length_le.trans (hs j)
  · exact hb (hs j)
  · exact hb (hs j)

theorem fit_eb (h : Effect s i t) (hwf : i.wellFormed s.cfg.toRawConfig = true) (hs : s.MessagesFit) :
    ∀ j, ∀ m ∈ t.ebAt j, m.fits s.cfg.toRawConfig := by
  have heb := State.ebFits_iff.mp hs.eb
  have hrxm := State.rxmFits_iff.mp hs.rxm
  intro j m hm
  rcases h.ebAt_cases j with he | ⟨he, -⟩ | ⟨-, ms, he, hms, -⟩ | ⟨m', rfl, ms, he, hms, -⟩
  · exact heb j m (he ▸ hm)
  · exact heb j m (he.mem hm)
  · rcases List.mem_append.mp (he ▸ hm) with hm | hm
    · exact heb j m hm
    · exact hrxm j m (hms m hm)
  · rcases List.mem_append.mp (he ▸ hm) with hm | hm
    · exact heb j m hm
    · simp only [Instr.wellFormed, Bool.and_eq_true] at hwf
      exact hms m hm ▸ hwf.2

theorem fit_out (h : Effect s i t) (hwf : i.wellFormed s.cfg.toRawConfig = true) (hs : s.MessagesFit) :
    ∀ m ∈ t.out, m.fits s.cfg.toRawConfig := by
  intro m hm
  rcases h.out_cases with he | ⟨n, p, he, hi⟩ <;> rw [he] at hm
  · exact hs.out m hm
  · rcases List.mem_or_eq_of_mem_set hm with hm | rfl
    · exact hs.out m hm
    · rcases hi with ⟨-, hfits⟩ | ⟨g, rfl⟩
      · exact hfits
      · simp only [Instr.wellFormed, Bool.and_eq_true] at hwf
        obtain ⟨⟨⟨-, hn⟩, hp⟩, -⟩ := hwf
        exact Bool.and_eq_true_iff.mpr ⟨hn, hp⟩

theorem fit_rxm (h : Effect s i t) (hs : s.MessagesFit) :
    ∀ j, ∀ m ∈ t.rxmAt j, m.fits s.cfg.toRawConfig := by
  intro j m hm
  rcases h.received_cases with ⟨-, -, he⟩ | ⟨-, he, -⟩
  · exact State.rxmFits_iff.mp hs.rxm j m (by rwa [State.rxmAt, ← he])
  · rw [State.rxmAt_of_rxm he] at hm
    split at hm
    · exact (State.received_ok ‹_› hm).1
    · cases hm

theorem messagesFit (h : Effect s i t) (hwf : i.wellFormed s.cfg.toRawConfig = true)
    (hs : s.MessagesFit) : t.MessagesFit := by
  refine ⟨State.ebFits_iff.mpr ?_, ?_, State.rxmFits_iff.mpr ?_⟩ <;> rw [h.cfg]
  · exact h.fit_eb hwf hs
  · exact h.fit_out hwf hs
  · exact h.fit_rxm hs

theorem countersOk (h : Effect s i t) (hs : s.CountersOk) : t.CountersOk := by
  have hc := h.cfg
  refine ⟨?_, ?_, ?_, ?_⟩ <;> rw [hc]
  · rcases h.live_cases with he | ⟨-, n, he⟩ <;> rw [he]
    · exact hs.live
    · exact perLink_nextLive_le _ _ _ _
  · rcases h.received_cases with ⟨he, -, -⟩ | ⟨-, -, ⟨n, he⟩, -⟩ <;> rw [he]
    · exact hs.syncCnt
    · exact perLink_countUp_lt _ _ _ _
  · rcases h.received_cases with ⟨-, he, -⟩ | ⟨-, -, -, n, he⟩ <;> rw [he]
    · exact hs.dataCnt
    · exact perLink_countUp_lt _ _ _ _
  · rcases h.emptyCnt_cases with he | ⟨-, n, he⟩ <;> rw [he]
    · exact hs.emptyCnt
    · exact perLink_countUp_lt _ _ _ _

theorem controlOk (h : Effect s i t) (hs : s.ControlOk) : t.ControlOk := by
  cases h with
  | pidMove sp mv r he => exact ⟨he, clampFx_isFx _ _, hs.lastCorr, hs.divState⟩
  | fcRun ls r =>
    have hf := hs.fcRun ls
    rw [State.fcRun_frame] at hf
    exact ⟨hf.prevErr, hf.integ, hf.lastCorr, hf.divState⟩
  | t7 =>
    have hd : (s.fcSetDegree s.liveCount).ControlOk := { hs with }
    have hf := hd.fcRun s.levels
    rw [State.fcRun_frame] at hf
    exact ⟨hf.prevErr, hf.integ, hf.lastCorr, hf.divState⟩
  | _ => exact { hs with }

theorem errorsOk (h : Effect s i t) (hrun : s.halt = .none) (hs : s.ErrorsOk) : t.ErrorsOk := by
  rcases h.record_cases with ⟨hh, hl, hsn, -, -⟩ | ⟨-, u, cause, -, rfl⟩ | ⟨-, rfl⟩ | ⟨-, rfl⟩
  · have hrun' : t.halt = .none := hh.trans hrun
    refine ⟨fun hne => absurd hrun' hne, fun hne => absurd hrun' hne, ?_, ?_, ?_, ?_⟩
    · rw [hsn, hh]; exact hs.snapHalt
    · rw [hsn, hl]; exact hs.snapError
    · rw [hl]; exact hs.lastError
    · rcases h.result_cases with hr | ⟨-, hr⟩
      · exact hr ▸ hs.result
      · exact hr hs.result
  · exact u.errorsOk_raiseFatal cause
  · exact ⟨fun hne => absurd hrun hne, fun hne => absurd hrun hne, hs.snapHalt, hs.snapError,
      hs.lastError, hs.result⟩
  · exact hs.t7 hrun

theorem snapOk (h : Effect s i t) (hdue : s.stepDue i = true) (hs : s.SnapOk) : t.SnapOk := by
  rcases h.record_cases with ⟨-, -, hsn, hb, hseq⟩ | ⟨-, u, cause, -, rfl⟩ | ⟨rfl, rfl⟩ | ⟨-, rfl⟩
  · refine ⟨fun hne => ?_, ?_⟩ <;> rw [hsn, hb]
    · exact hs.beforeT7 fun h7 => hne ((hseq hdue).mpr h7)
    · exact hs.atT7
  · exact u.snapOk_raiseFatal cause
  · have hq : s.seq = .t6 := State.seq_of_stepDue hdue rfl
    have hb : s.snap = s.boundary := hs.beforeT7 (by rw [hq]; nofun)
    exact ⟨fun hne => absurd rfl hne, by simp only [State.t6, hb]; rfl⟩
  · exact s.snapOk_t7

theorem inv (h : Effect s i t) (hrun : s.halt = .none) (hwf : i.wellFormed s.cfg.toRawConfig = true)
    (hdue : s.stepDue i = true) (hs : s.Inv) : t.Inv where
  shape := h.shapeOk hs.shape
  levels := h.levelsOk hs.levels
  fit := h.messagesFit hwf hs.fit
  counters := h.countersOk hs.counters
  control := h.controlOk hs.control
  errors := h.errorsOk hrun hs.errors
  snap := h.snapOk hdue hs.snap

end Effect

namespace State

theorem Inv.of_sameBlock {s t : State} (h : s.sameBlock t) (hs : s.Inv) : t.Inv := by
  obtain ⟨p, o, r, es, rfl⟩ := sameBlock_iff.mp h
  exact ⟨{ hs.shape with }, hs.levels, { hs.fit with }, { hs.counters with }, { hs.control with },
    { hs.errors with }, { hs.snap with }⟩

theorem Inv.tickStart {s : State} (hs : s.Inv) (hrun : s.halt = .none) (hidle : s.seq = .idle) :
    s.tickStart.Inv where
  shape := { hs.shape with out := length_perLink .. }
  levels := hs.levels
  fit := { hs.fit with
    out := fun m hm => by
      obtain ⟨j, -, rfl⟩ := mem_perLink.mp hm
      rfl }
  counters := { hs.counters with }
  control := { hs.control with }
  errors := { hs.errors with
    idle := fun hne => absurd hrun hne
    result := nofun }
  snap := ⟨fun _ => hs.snap.beforeT7 (by rw [hidle]; nofun), hs.snap.atT7⟩

/-- `DIV_INIT` lies within the integer limits (R10). -/
theorem resetDivState_bounds (c : Config) :
    fxOfInt c.toRawConfig c.divMin ≤ resetDivState c.toRawConfig ∧
      resetDivState c.toRawConfig ≤ fxOfInt c.toRawConfig c.divMax := by
  obtain ⟨-, -, -, -, -, -, -, -, -, -, -, ⟨hmin, hmax⟩, -⟩ := c.wf
  exact ⟨fxOfInt_le (by exact_mod_cast hmin), fxOfInt_le (by exact_mod_cast hmax)⟩

theorem isFx_zero (c : RawConfig) : c.isFx 0 := by
  have h : (0 : Int) < 2 ^ (c.fxBits - 1) := by positivity
  simp only [RawConfig.isFx, RawConfig.fxMin, RawConfig.fxMax]
  omega

theorem inv_resetIn (c : Config) : (resetIn c).Inv where
  shape := by constructor <;> exact List.length_replicate ..
  levels := fun q hq => by
    rw [List.eq_of_mem_replicate hq, List.length_replicate]
    exact Nat.div_le_self ..
  fit :=
    { eb := fun q hq m hm => by
        rw [List.eq_of_mem_replicate hq] at hm
        rw [List.eq_of_mem_replicate hm]
        rfl
      out := fun m hm => by rw [List.eq_of_mem_replicate hm]; rfl
      rxm := fun q hq m hm => by rw [List.eq_of_mem_replicate hq] at hm; cases hm }
  counters :=
    { live := fun n hn => by rw [List.eq_of_mem_replicate hn]; exact Nat.zero_le _
      syncCnt := fun n hn => by rw [List.eq_of_mem_replicate hn]; positivity
      dataCnt := fun n hn => by rw [List.eq_of_mem_replicate hn]; positivity
      emptyCnt := fun n hn => by rw [List.eq_of_mem_replicate hn]; positivity }
  control := ⟨isFx_zero _, isFx_zero _, isFx_zero _, resetDivState_bounds c⟩
  errors := ⟨fun _ => rfl, fun hne => absurd rfl hne, rfl, rfl, nofun, nofun⟩
  snap := ⟨fun _ => rfl, rfl⟩

end State

/-! ### Link tags and degree -/

theorem State.tagsOk_resetIn (c : Config) : (State.resetIn c).TagsOk := by
  have heb : ∀ j, ∀ m ∈ (State.resetIn c).ebAt j, m = .sync :=
    (forall_mem_iff_getD (Q := fun q => ∀ m ∈ q, m = Message.sync) (by simp)).mp fun q hq m hm => by
      rw [List.eq_of_mem_replicate hq] at hm
      exact List.eq_of_mem_replicate hm
  have hrxm : ∀ j, (State.resetIn c).rxmAt j = [] :=
    (forall_mem_iff_getD (Q := (· = [])) rfl).mp fun q hq => List.eq_of_mem_replicate hq
  refine ⟨fun j m hm => heb j m hm ▸ rfl, fun j m hm => ?_⟩
  rw [hrxm] at hm
  cases hm

theorem State.TagsOk.of_sameBlock {s t : State} (h : s.sameBlock t) (hs : s.TagsOk) : t.TagsOk := by
  obtain ⟨p, o, r, es, rfl⟩ := sameBlock_iff.mp h
  exact ⟨hs.eb, hs.rxm⟩

theorem State.DegreeOk.of_sameBlock {s t : State} (h : s.sameBlock t) (hs : s.DegreeOk) :
    t.DegreeOk := by
  obtain ⟨p, o, r, es, rfl⟩ := sameBlock_iff.mp h
  exact hs

theorem Effect.degreeOk {s t : State} {i : Instr} (h : Effect s i t)
    (hset : ∀ d, i = .fcSetDegree d → d ≤ s.cfg.degree) (hs : s.DegreeOk) : t.DegreeOk := by
  unfold State.DegreeOk
  rw [h.cfg]
  rcases h.fcDegree_cases with he | ⟨-, he⟩ | ⟨d, hi, he⟩ <;> rw [he]
  · exact hs
  · exact s.liveCount_le
  · exact hset d hi

theorem Effect.tagsOk {s t : State} {i : Instr} (h : Effect s i t)
    (hpush : ∀ l m, i = .ebPush l m → m.taggedFor l = true) (hs : s.TagsOk) : t.TagsOk := by
  refine ⟨fun j m hm => ?_, fun j m hm => ?_⟩
  · rcases h.ebAt_cases j with he | ⟨he, -⟩ | ⟨-, ms, he, hms, -⟩ | ⟨m', hi, ms, he, hms, -⟩
    · exact hs.eb j m (he ▸ hm)
    · exact hs.eb j m (he.mem hm)
    · exact (List.mem_append.mp (he ▸ hm)).elim (hs.eb j m) fun hm => hs.rxm j m (hms m hm)
    · exact (List.mem_append.mp (he ▸ hm)).elim (hs.eb j m) fun hm => hms m hm ▸ hpush j m' hi
  · rcases h.received_cases with ⟨-, -, he⟩ | ⟨-, he, -⟩
    · exact hs.rxm j m (by rwa [State.rxmAt, ← he])
    · rw [State.rxmAt_of_rxm he] at hm
      split at hm
      · exact (State.received_ok ‹_› hm).2
      · cases hm

/-! ### The stepwise tick -/

/-- A state that a step leaves as it is, every run leaves as it is. -/
theorem core_run_of_fixed {s : State} (h : step s = .next s) (k : Nat) :
    Sys2Proof.core.run k s = .next s := by
  induction k with
  | zero => rfl
  | succ k ih => rw [core_run_succ k h, ih]

/-- After the answer to its trigger, a halted block with no event to come stands still (R197). -/
theorem step_haltedTick {s : State} (hs : s.schedule = []) (hh : s.halt ≠ .none) :
    step s.haltedTick = .next s.haltedTick := by
  by_cases hidle : s.seq = .idle
  · exact step_idle hs hidle
  · obtain ⟨i, hd, hsil⟩ : ∃ i, dueInstr s.seq = some i ∧ silenced i = true := by
      cases hq : s.seq with
      | idle => exact absurd hq hidle
      | _ => exact ⟨_, rfl, rfl⟩
    exact (step_due (s := s.haltedTick) hs hd).trans (exec_silenced (s := s.haltedTick) hsil hh)

/-- Seven steps with no event to come, from the start of a tick, are the seven steps of the tick (R22). -/
theorem core_run_sevenSteps {s : State} (hs : s.schedule = []) (hrun : s.halt = .none)
    (hseq : s.seq = .t1) : Sys2Proof.core.run 7 s = .next s.sevenSteps := by
  have due {u v : State} {i : Instr} (hu : u.schedule = []) (hd : dueInstr u.seq = some i)
      (hx : exec i u = .next v) : step u = .next v := (step_due hu hd).trans hx
  rw [core_run_succ 6 (due hs (by rw [hseq]; rfl) (exec_tickT1_running hrun)),
    core_run_succ 5 (due (by simpa) (by rw [State.t1_seq]; rfl) (exec_tickT2_running (by simpa))),
    core_run_succ 4 (due (by simpa) rfl (exec_tickT3_running (by simpa))),
    core_run_succ 3 (due (by simpa) rfl (exec_tickT4_running (by simpa)))]
  have hs4 : s.t1.t2.t3.t4.schedule = [] := by simpa
  rcases State.sevenSteps_cases hrun with ⟨hh, h7⟩ | ⟨-, hidle, h7⟩ <;> rw [h7]
  · have hq : s.t1.t2.t3.t4.seq = .t5 := State.t4_seq hh
    rw [core_run_succ 2 (due hs4 (by rw [hq]; rfl) (exec_tickT5_running hh)),
      core_run_succ 1 (due (by simpa) rfl (exec_tickT6_running (by simpa))),
      core_run_succ 0 (due (by simpa) rfl (exec_tickT7_running (by simpa)))]
    rfl
  · exact core_run_of_fixed (step_idle hs4 hidle) 3

/-! ### The obligations -/

/-- Settles O57: each effect keeps each part of the invariant, and so do the start of a tick and a reset. -/
theorem everyStepKeepsTheInvariant : Obligations.EveryStepKeepsTheInvariant := fun _ _ =>
  step_keeps .of_sameBlock (fun hrun hc _ hwf hdue he => he.inv hrun (hc ▸ hwf) hdue)
    (fun hrun hidle hs => hs.tickStart hrun hidle) (fun _ => State.inv_resetIn _)

/-- Settles O45: a halted block and an abandoned tick stand still after the trigger, and a tick that starts
runs its steps one by one. -/
theorem triggerAndSevenStepsEqualTheTick : Obligations.TriggerAndSevenStepsEqualTheTick := by
  intro s hs
  have hstep : step { s with schedule := [.trigger] } = .next s.triggered := by
    change Host.Outcome.next ({ s with schedule := [] } : State).triggered = _
    rw [← hs]
  rw [core_run_succ 7 hstep]
  rcases trigger_cases s with ⟨hh, hg, ht⟩ | ⟨-, -, hg, ht⟩ | ⟨hrun, -, hg, ht⟩ <;>
    rw [hg, exec, execTick, ht]
  · exact core_run_of_fixed (step_haltedTick hs hh) 7
  · exact core_run_of_fixed (step_idle (s := s.overrun) hs rfl) 7
  · exact core_run_sevenSteps (s := s.tickStart) hs hrun rfl

/-- Settles O48: an effect moves `STEP` in the fixed order or halts, a tick as one operation ends where it
began. -/
theorem stepsFollowTheFixedOrder : Obligations.StepsFollowTheFixedOrder := by
  intro s t _ h
  cases stepKind_of_step h with
  | same h =>
    obtain ⟨p, o, r, es, rfl⟩ := State.sameBlock_iff.mp h
    exact .inl rfl
  | reset hs ht => exact .inr (.inr ⟨ht ▸ rfl, .inr ⟨_, hs⟩⟩)
  | effect i _ _ _ hdue he =>
    rcases he.seq_cases with hq | ⟨q, hq⟩ | ⟨-, hq, hh⟩
    · exact .inl hq
    · rw [State.seq_of_stepDue hdue (dueSeq_of_mem_tickOrder hq)]
      exact .inr (.inl (List.mem_cons_of_mem _ (List.mem_map_of_mem (f := Prod.snd) hq)))
    · exact .inr (.inr ⟨hq, .inl hh⟩)
  | start _ hidle ht =>
    rw [ht, hidle]
    exact .inr (.inl (List.mem_cons_self ..))
  | tick hrun hidle ht =>
    rw [ht, hidle]
    exact .inl (State.sevenSteps_seq hrun)

/-- Settles O49: every kind of step but a reset that changes a register needs a running block. -/
theorem onlyResetLeavesAHalt : Obligations.OnlyResetLeavesAHalt := by
  intro s t hh h hreset
  cases stepKind_of_step h with
  | same h => exact h
  | reset hs => exact absurd hs (hreset _)
  | effect _ hrun => exact absurd hrun hh
  | start hrun => exact absurd hrun hh
  | tick hrun => exact absurd hrun hh

/-- Settles O53: no effect names the configuration. -/
theorem nothingChangesTheConfiguration : Obligations.NothingChangesTheConfiguration := fun s _ =>
  step_keeps (P := fun u => u.cfg = s.cfg) (fun h hu => h.cfg.trans hu)
    (fun _ _ _ _ _ he hu => he.cfg.trans hu) (fun _ _ hu => hu) (fun _ => rfl) rfl

/-- Settles O54: the writers of each register, read off the effects. -/
theorem eachRegisterHasOnlyItsWriters : Obligations.EachRegisterHasOnlyItsWriters := by
  intro i s t h hreset htick
  rcases exec_cases h with hsame | ⟨hi, -⟩ | ⟨-, he⟩ | ⟨hi, -⟩
  · obtain ⟨p, o, r, es, rfl⟩ := State.sameBlock_iff.mp hsame
    simp
  · exact absurd hi hreset
  · obtain ⟨hhalt, herror, hsnap, hboundary⟩ := he.record_writers
    refine ⟨he.eb_cases.resolve_left, fun h => (he.live_cases.resolve_left h).1, fun h => ?_,
      fun h => (he.emptyCnt_cases.resolve_left h).1, fun h => he.pid_cases.resolve_left fun e => ?_,
      fun h => he.divider_cases.resolve_left fun e => ?_, fun h => ?_, fun h => ?_,
      hhalt, herror, hsnap, hboundary, fun h => (he.result_cases.resolve_left h).1, fun h => ?_⟩
    · rcases he.received_cases with ⟨e1, e2, e3⟩ | ⟨hi, -⟩
      · exact absurd h (by simp [e1, e2, e3])
      · exact hi
    · exact absurd h (by simp [e.1, e.2])
    · exact absurd h (by simp [e.1, e.2])
    · exact (he.fcDegree_cases.resolve_left h).imp And.left fun ⟨d, hi, _⟩ => ⟨d, hi⟩
    · obtain ⟨n, p, -, hi⟩ := he.out_cases.resolve_left h
      exact hi.imp And.left fun ⟨g, hg⟩ => ⟨n, p, g, hg⟩
    · rcases he.seq_cases.resolve_left h with ⟨q, hq⟩ | ⟨hw, -⟩
      · exact .inl (List.mem_append_left [Instr.tideFifoFull, .tickOverrun]
          (List.mem_map_of_mem (f := Prod.fst) hq))
      · exact hw.mono (by simp)
  · exact absurd hi htick

/-- Settles O55: an effect on the buffer of a link that is not enabled names the link. -/
theorem aDisabledLinkKeepsItsBuffer : Obligations.ADisabledLinkKeepsItsBuffer := by
  intro s t i hi hdis h hreset hpush hpop
  refine step_keeps (P := fun u => u.ebAt i = s.ebAt i) (fun hb hu => ?_)
    (fun {j u v} _ hc hdir _ _ he hu => ?_) (fun _ _ hu => hu)
    (fun ⟨es, hs⟩ => absurd hs (hreset es)) rfl h
  · obtain ⟨p, o, r, es, rfl⟩ := State.sameBlock_iff.mp hb
    exact hu
  · have hdis' : u.enabled i ≠ true := by simp [State.enabled, hc, ← hdis]
    rcases he.ebAt_cases i with he | ⟨-, hen | rfl | hge⟩ | ⟨hen, -⟩ | ⟨m, rfl, -⟩
    · exact he.trans hu
    · exact absurd hen hdis'
    · obtain ⟨es, hs⟩ := hdir.schedule rfl rfl
      exact absurd hs (hpop es)
    · exact absurd hi (by rw [← hc]; omega)
    · exact absurd hen hdis'
    · obtain ⟨es, hs⟩ := hdir.schedule rfl rfl
      exact absurd hs (hpush m es)

/-- Settles O58: a buffer grows by received Messages, which T3 tags, or by what EB_PUSH brings. -/
theorem everyStepKeepsTheLinkTags : Obligations.EveryStepKeepsTheLinkTags := fun s t hs h hpush =>
  step_keeps .of_sameBlock
    (fun _ _ hdir _ _ he => he.tagsOk fun l m hi => by
      subst hi
      obtain ⟨es, hes⟩ := hdir.schedule rfl rfl
      exact hpush l m es hes)
    (fun _ _ hu => ⟨hu.eb, hu.rxm⟩) (fun _ => State.tagsOk_resetIn _) hs h

/-- Settles O59: T7 stores the live-link count, which is at most DEGREE. -/
theorem everyStepKeepsTheDegreeInRange : Obligations.EveryStepKeepsTheDegreeInRange :=
  fun s t hs h hset => step_keeps .of_sameBlock
    (fun _ hc hdir _ _ he => he.degreeOk fun d hi => by
      subst hi
      obtain ⟨es, hes⟩ := hdir.schedule rfl rfl
      exact hc ▸ hset d es hes)
    (fun _ _ hu => hu) (fun _ => Nat.le_refl _) hs h

/-- Settles O47: `dueInstr` gives each `STEP` its step of the tick. -/
theorem theEngineRunsTheStepThatSTEPNames : Obligations.TheEngineRunsTheStepThatSTEPNames := by
  refine fun s => ⟨step_idle, fun p hp hseq => ?_⟩
  have hdue : dueInstr s.seq = some p.2 := by
    rw [hseq]
    clear hseq
    revert p
    decide
  refine ⟨fun hs => step_due hs hdue, fun es hs => ?_⟩
  simp [step, hs, deliver, engine, hdue]

/-- Settles O51: `afterReset` takes the ports and the schedule from the state before. -/
theorem resetLeavesTheEnvironment : Obligations.ResetLeavesTheEnvironment :=
  fun _ => ⟨_, rfl, rfl, rfl⟩

/-- Settles O56: every register of the reset state is in its range. -/
theorem resetMeetsTheInvariant : Obligations.ResetMeetsTheInvariant :=
  ⟨fun c => ⟨State.inv_resetIn c, State.tagsOk_resetIn c, Nat.le_refl _⟩,
    State.inv_resetIn _, rfl⟩

end Sys2Proof.Machine
end

section
/-! PROOF. The statements of 30_encoding.md. Decoding of words rests on three facts about `packTagged`: its
fields, the word made of a word's own fields, and when it is the Sync word 1; both directions of the codec
(O2, O3) and the two classifications (O8, O22) are read off one `↔` per decoder. -/

namespace Sys2Proof

variable {c : RawConfig} {w : Word} {i : Instr} {n p : Nat} {t : Bool}

/-! ### Packed words -/

@[simp] theorem isWord_iff : isWord c w = true ↔ w < 2 ^ c.wordBits := decide_eq_true_iff

theorem isWord_one (c : RawConfig) : isWord c 1 = true := isWord_iff.mpr (Laws.EncodeFits.one_lt c)

theorem isWord_packTagged (c : RawConfig) (n p : Nat) (t : Bool) :
    isWord c (packTagged c n p t) = true :=
  isWord_iff.mpr (packTagged_lt c n p t)

theorem neighborField_lt (w : Word) : neighborField w < 8 := by
  rw [neighborField_eq]
  exact Nat.mod_lt _ (by decide)

theorem payloadField_lt (c : RawConfig) (w : Word) : payloadField c w < 2 ^ c.payloadBits := by
  rw [payloadField_eq]
  exact Nat.mod_lt _ (by positivity)

/-- A word is the packing of its own fields: no bit is dropped (R70). -/
theorem packTagged_fields (h : isWord c w = true) :
    packTagged c (neighborField w) (payloadField c w) (tagField w) = w := by
  have htag : (tagField w).toNat = w % 2 := by
    rw [tagField_eq]
    rcases Nat.mod_two_eq_zero_or_one w with h0 | h1 <;> simp [*]
  rw [packTagged_eq, neighborField_eq, payloadField_eq, htag, Nat.mod_mod, Nat.mod_mod]
  exact (word_eq_fields (isWord_iff.mp h)).symm

/-- Fields that fit are the fields of the packed word (R73). -/
theorem fields_packTagged_of_lt (hn : n < 8) (hp : p < 2 ^ c.payloadBits) (t : Bool) :
    neighborField (packTagged c n p t) = n ∧ payloadField c (packTagged c n p t) = p ∧
      tagField (packTagged c n p t) = t := by
  simpa only [Nat.mod_eq_of_lt hn, Nat.mod_eq_of_lt hp] using fields_packTagged c n p t

/-- The one packing that is the Sync word, which no class of `Data` words has (R75, R77). -/
theorem packTagged_eq_one_iff (hn : n < 8) (hp : p < 2 ^ c.payloadBits) :
    packTagged c n p t = 1 ↔ n = 0 ∧ p = 0 ∧ t = true := by
  rw [packTagged_eq, Nat.mod_eq_of_lt hn, Nat.mod_eq_of_lt hp]
  unfold Word
  cases t
  · simp only [Bool.toNat_false, Bool.false_eq_true, and_false, iff_false]
    omega
  · simp only [Bool.toNat_true, and_true]
    omega

/-! ### The decoders of words -/

/-- What the wire decoder reads (R75). -/
theorem decodeWire_eq_ok_iff :
    decodeWire c w = .ok i ↔ isWord c w = true ∧
      (w = 1 ∧ i = .sync ∨
        w ≠ 1 ∧ tagField w = true ∧ i = .dataNc (neighborField w) (payloadField c w) ∨
        w ≠ 1 ∧ tagField w = false ∧ i = .data (neighborField w) (payloadField c w)) := by
  unfold decodeWire
  by_cases hw : isWord c w = true
  · by_cases h1 : w = 1
    · simp [isWord_one, h1, @eq_comm _ i]
    · cases tagField w <;> simp [hw, h1, @eq_comm _ i]
  · simp [hw]

/-- The wire decoder reads every WORD (R75). -/
theorem exists_decodeWire (h : isWord c w = true) : ∃ i, decodeWire c w = .ok i := by
  unfold decodeWire
  rw [if_pos h]
  split
  · exact ⟨_, rfl⟩
  · split <;> exact ⟨_, rfl⟩

/-- What the producer decoder reads (R77). -/
theorem decodeProducer_eq_ok_iff :
    decodeProducer c w = .ok i ↔ isWord c w = true ∧
      (w = 1 ∧ i = .userSync ∨
        w ≠ 1 ∧ c.degree ≤ neighborField w ∧
          i = .userBadnbr (neighborField w) (payloadField c w) (tagField w) ∨
        w ≠ 1 ∧ neighborField w < c.degree ∧
          i = .userData (neighborField w) (payloadField c w) (tagField w)) := by
  unfold decodeProducer
  by_cases hw : isWord c w = true
  · by_cases h1 : w = 1
    · simp [isWord_one, h1, @eq_comm _ i]
    · by_cases hd : c.degree ≤ neighborField w
      · simp [hw, h1, hd, hd.not_gt, @eq_comm _ i]
      · simp [hw, h1, hd, lt_of_not_ge hd, @eq_comm _ i]
  · simp [hw]

theorem decodeWire_one (c : RawConfig) : decodeWire c 1 = .ok .sync :=
  decodeWire_eq_ok_iff.mpr ⟨isWord_one c, .inl ⟨rfl, rfl⟩⟩

theorem decodeProducer_one (c : RawConfig) : decodeProducer c 1 = .ok .userSync :=
  decodeProducer_eq_ok_iff.mpr ⟨isWord_one c, .inl ⟨rfl, rfl⟩⟩

/-- At the wire a packed word other than Sync is of the class its bit 0 names (R75). -/
theorem decodeWire_packTagged (hn : n < 8) (hp : p < 2 ^ c.payloadBits)
    (h1 : ¬ (n = 0 ∧ p = 0 ∧ t = true)) :
    decodeWire c (packTagged c n p t) = .ok (if t then .dataNc n p else .data n p) := by
  obtain ⟨hnf, hpf, htf⟩ := fields_packTagged_of_lt hn hp t
  rw [← packTagged_eq_one_iff hn hp] at h1
  rw [decodeWire_eq_ok_iff, hnf, hpf, htf]
  refine ⟨isWord_packTagged c n p t, .inr ?_⟩
  cases t
  · exact .inr ⟨h1, rfl, rfl⟩
  · exact .inl ⟨h1, rfl, rfl⟩

/-- On the producer channel it is of the class its neighbor field names (R77). -/
theorem decodeProducer_packTagged (hn : n < 8) (hp : p < 2 ^ c.payloadBits)
    (h1 : ¬ (n = 0 ∧ p = 0 ∧ t = true)) :
    decodeProducer c (packTagged c n p t) =
      .ok (if c.degree ≤ n then .userBadnbr n p t else .userData n p t) := by
  obtain ⟨hnf, hpf, htf⟩ := fields_packTagged_of_lt hn hp t
  rw [← packTagged_eq_one_iff hn hp] at h1
  rw [decodeProducer_eq_ok_iff, hnf, hpf, htf]
  refine ⟨isWord_packTagged c n p t, .inr ?_⟩
  split
  · exact .inl ⟨h1, ‹_›, rfl⟩
  · exact .inr ⟨h1, by omega, rfl⟩

/-- The fields of a word other than Sync are not those of the Sync word. -/
theorem fields_ne_sync (hw : isWord c w = true) (h1 : w ≠ 1) :
    ¬ (neighborField w = 0 ∧ payloadField c w = 0 ∧ tagField w = true) := by
  rwa [← packTagged_eq_one_iff (neighborField_lt w) (payloadField_lt c w), packTagged_fields hw]

/-! ### The decoder of result codes -/

/-- The codes from 7 up to 8 bits are the reserved ones (R79). -/
theorem decodeResultCode_reserved (h7 : 7 ≤ n) (h : n < 256) :
    decodeResultCode n = .ok (.resultReserved n) := by
  obtain ⟨k, rfl⟩ := Nat.exists_eq_add_of_le' h7
  exact if_pos h

/-! ### Well-formed rows of words -/

theorem wellFormed_data : (Instr.data n p).wellFormed c = true ↔ n < 8 ∧ p < 2 ^ c.payloadBits := by
  simp only [Instr.wellFormed, Bool.and_eq_true, decide_eq_true_eq]

theorem wellFormed_dataNc : (Instr.dataNc n p).wellFormed c = true ↔
    n < 8 ∧ p < 2 ^ c.payloadBits ∧ ¬ (n = 0 ∧ p = 0) := by
  simp only [Instr.wellFormed, Bool.and_eq_true, decide_eq_true_eq, and_assoc]

theorem wellFormed_userBadnbr : (Instr.userBadnbr n p t).wellFormed c = true ↔
    c.degree ≤ n ∧ n < 8 ∧ p < 2 ^ c.payloadBits := by
  simp only [Instr.wellFormed, Bool.and_eq_true, decide_eq_true_eq, and_assoc]

theorem wellFormed_userData : (Instr.userData n p t).wellFormed c = true ↔
    n < c.degree ∧ n < 8 ∧ p < 2 ^ c.payloadBits ∧ ¬ (n = 0 ∧ p = 0 ∧ t = true) := by
  simp only [Instr.wellFormed, Bool.and_eq_true, decide_eq_true_eq, and_assoc]

theorem wellFormed_resultReserved : (Instr.resultReserved n).wellFormed c = true ↔
    7 ≤ n ∧ n < 256 := by
  simp only [Instr.wellFormed, Bool.and_eq_true, decide_eq_true_eq]

/-! ### Decode after encode, encode after decode -/

/-- Settles O2: the rows of words by the two decoders' equations on packed words, a reserved code by
its range, and every other row by evaluation. -/
theorem decodingAnEncodedInstructionGivesItBack :
    Obligations.DecodingAnEncodedInstructionGivesItBack := by
  intro c i p w hwf hp he
  cases i <;> cases he <;> cases hp
  case sync => exact decodeWire_one c.toRawConfig
  case data n p =>
    obtain ⟨hn, hp⟩ := wellFormed_data.mp hwf
    exact decodeWire_packTagged hn hp (by simp)
  case dataNc n p =>
    obtain ⟨hn, hp, h1⟩ := wellFormed_dataNc.mp hwf
    exact decodeWire_packTagged hn hp (by simpa using h1)
  case userSync => exact decodeProducer_one c.toRawConfig
  case userBadnbr n p t =>
    obtain ⟨hd, hn, hp⟩ := wellFormed_userBadnbr.mp hwf
    obtain ⟨⟨hpos, -⟩, -⟩ := c.wf
    exact (decodeProducer_packTagged hn hp (by omega)).trans (by rw [if_pos hd])
  case userData n p t =>
    obtain ⟨hd, hn, hp, h1⟩ := wellFormed_userData.mp hwf
    exact (decodeProducer_packTagged hn hp h1).trans (by rw [if_neg hd.not_ge])
  case resultReserved =>
    obtain ⟨h7, h⟩ := wellFormed_resultReserved.mp hwf
    exact decodeResultCode_reserved h7 h
  all_goals rfl

/-- What the wire decoder reads is well formed and encodes to the word (R75). -/
theorem decodeWire_sound (h : decodeWire c w = .ok i) :
    i.wellFormed c = true ∧ encode c i = some w := by
  obtain ⟨hw, ⟨rfl, rfl⟩ | ⟨h1, ht, rfl⟩ | ⟨-, ht, rfl⟩⟩ := decodeWire_eq_ok_iff.mp h
  · exact ⟨rfl, rfl⟩
  · have hne := fields_ne_sync hw h1
    rw [ht] at hne
    exact ⟨wellFormed_dataNc.mpr ⟨neighborField_lt w, payloadField_lt c w, by simpa using hne⟩,
      by rw [encode, ← ht, packTagged_fields hw]⟩
  · exact ⟨wellFormed_data.mpr ⟨neighborField_lt w, payloadField_lt c w⟩,
      by rw [encode, ← ht, packTagged_fields hw]⟩

/-- So is what the producer decoder reads (R77). -/
theorem decodeProducer_sound (h : decodeProducer c w = .ok i) :
    i.wellFormed c = true ∧ encode c i = some w := by
  obtain ⟨hw, ⟨rfl, rfl⟩ | ⟨-, hd, rfl⟩ | ⟨h1, hd, rfl⟩⟩ := decodeProducer_eq_ok_iff.mp h
  · exact ⟨rfl, rfl⟩
  · exact ⟨wellFormed_userBadnbr.mpr ⟨hd, neighborField_lt w, payloadField_lt c w⟩,
      by rw [encode, packTagged_fields hw]⟩
  · exact ⟨wellFormed_userData.mpr
        ⟨hd, neighborField_lt w, payloadField_lt c w, fields_ne_sync hw h1⟩,
      by rw [encode, packTagged_fields hw]⟩

/-- And what the decoder of result codes reads (R78, R79). -/
theorem decodeResultCode_sound (c : RawConfig) (h : decodeResultCode w = .ok i) :
    i.wellFormed c = true ∧ encode c i = some w := by
  by_cases h7 : 7 ≤ w
  · by_cases hlt : w < 256
    · rw [decodeResultCode_reserved h7 hlt] at h
      cases h
      exact ⟨wellFormed_resultReserved.mpr ⟨h7, hlt⟩, rfl⟩
    · obtain ⟨k, rfl⟩ := Nat.exists_eq_add_of_le' h7
      exact nomatch (if_neg hlt).symm.trans h
  · interval_cases w <;> cases h <;> exact ⟨rfl, rfl⟩

/-- And what the decoder of halt causes reads (R80). -/
theorem decodeHaltCause_sound (c : RawConfig) (h : decodeHaltCause w = .ok i) :
    i.wellFormed c = true ∧ encode c i = some w := by
  unfold decodeHaltCause at h
  split at h <;> cases h <;> exact ⟨rfl, rfl⟩

/-- Settles O3: each place's decoder reads a well-formed row that encodes to the pattern. -/
theorem aDecodedPatternEncodesToItself : Obligations.ADecodedPatternEncodesToItself := by
  intro c p w i h
  obtain ⟨hwf, henc⟩ : i.wellFormed c.toRawConfig = true ∧ encode c.toRawConfig i = some w := by
    cases p with
    | wire => exact decodeWire_sound h
    | producer => exact decodeProducer_sound h
    | resultCode => exact decodeResultCode_sound _ h
    | haltCause => exact decodeHaltCause_sound _ h
  exact ⟨hwf, Machine.place_of_decodeAt h, henc⟩

end Sys2Proof

namespace Sys2Proof.Machine

variable {s : State} {w : Word} {i : Instr}

/-! ### Words as instructions: at the wire and in T1 -/

theorem exec_decode (s : State) (w : Word) :
    exec (.decode w) s = .next (s.answer (.message (decodeMessage s.cfg.toRawConfig w))) := rfl

/-- A wire word, run as a row, does what DECODE of the word does (log 11). -/
theorem exec_of_decodeWire (h : decodeWire s.cfg.toRawConfig w = .ok i) :
    exec i s = exec (.decode w) s := by
  rw [exec_decode, decodeMessage]
  obtain ⟨-, ⟨rfl, rfl⟩ | ⟨h1, -, rfl⟩ | ⟨h1, -, rfl⟩⟩ := decodeWire_eq_ok_iff.mp h
  · rfl
  · rw [if_neg h1]; rfl
  · rw [if_neg h1]; rfl

/-- A producer word, run as a row, does to the registers what T1 does with the word (log 12). -/
theorem exec_of_decodeProducer (hrun : s.halt = .none)
    (h : decodeProducer s.cfg.toRawConfig w = .ok i) :
    exec i s = .next ((s.ingest w).answer .none) := by
  unfold State.ingest decodeMessage
  obtain ⟨-, ⟨rfl, rfl⟩ | ⟨h1, hd, rfl⟩ | ⟨h1, hd, rfl⟩⟩ := decodeProducer_eq_ok_iff.mp h
  · exact exec_userSync_running hrun
  · simp only [if_neg h1, if_pos hd]
    exact exec_userBadnbr_running hrun _ _ _
  · simp only [if_neg h1, if_neg hd.not_ge]
    exact exec_userData_running hrun _ _ _

/-- T1 with a word waiting takes it from the mailbox and ingests it (R122). -/
theorem State.t1_of_waiting (h : s.ports.user = some w) :
    s.t1 = ((s.userRead.2.ingest w).goto .t2).answer .none := by
  simp only [t1, userRead, h]

/-- Settles O8: a WORD's bit 0 decides its class, and the class does what DECODE does. -/
theorem wireWordClassesAreComplete : Obligations.WireWordClassesAreComplete := by
  intro s w hw
  have hfit : w / 16 % 2 ^ s.cfg.payloadBits = w / 16 :=
    Nat.mod_eq_of_lt (Nat.div_lt_of_lt_mul (by simpa [wordBits_pow, mul_comm] using hw))
  obtain ⟨i, hi⟩ := exists_decodeWire hw
  obtain ⟨-, hcases⟩ := decodeWire_eq_ok_iff.mp hi
  rw [neighborField_eq, payloadField_eq, tagField_eq, hfit] at hcases
  suffices h : (w = 1 → i = .sync) ∧ (w % 2 = 0 → i = .data (w / 2 % 8) (w / 16)) ∧
      (w % 2 = 1 → w ≠ 1 → i = .dataNc (w / 2 % 8) (w / 16)) from
    ⟨i, hi, h.1, h.2.1, h.2.2, exec_of_decodeWire hi⟩
  obtain ⟨rfl, rfl⟩ | ⟨h1, ht, rfl⟩ | ⟨h1, ht, rfl⟩ := hcases
  · exact ⟨fun _ => rfl, by decide, fun _ h => absurd rfl h⟩
  · have hodd := of_decide_eq_true ht
    exact ⟨fun h => absurd h h1, fun h => absurd (h.symm.trans hodd) (by decide), fun _ _ => rfl⟩
  · have heven := of_decide_eq_false ht
    exact ⟨fun h => absurd h h1, fun _ => rfl, fun h => absurd h heven⟩

/-- Settles O22: T1 ingests the word, which is what running its class does. -/
theorem firstStepRunsTheProducerClass : Obligations.FirstStepRunsTheProducerClass := by
  intro s w i hrun hw hd
  refine ⟨_, exec_of_decodeProducer (s := s.userRead.2) hrun hd, ?_⟩
  rw [exec_tickT1_running hrun, State.t1_of_waiting hw]
  rfl

/-! ### Rows that only answer -/

/-- Settles O1: the ten words are evaluated. -/
theorem writtenOutWordsDecodeToTheirRows : Obligations.WrittenOutWordsDecodeToTheirRows :=
  ⟨rfl, rfl, rfl, rfl, rfl, rfl, rfl, rfl, rfl, rfl⟩

/-- Settles O9: each class of wire words answers with its Message. -/
theorem wireWordsAnswerTheirMessage : Obligations.WireWordsAnswerTheirMessage :=
  fun _ _ _ => ⟨rfl, rfl, rfl⟩

/-- A number from 7 up reads as `DecodeError` (R79). -/
theorem ofCode_of_ge {v : BitVec 8} (h : 7 ≤ v.toNat) : ResultCode.ofCode v = .decodeError := by
  obtain ⟨k, hk⟩ := Nat.exists_eq_add_of_le' h
  simp only [ResultCode.ofCode, hk]

/-- A reserved code answers with what a reader makes of it (R79). -/
theorem exec_resultReserved {code : Nat} (h7 : 7 ≤ code) (h : code < 256) :
    exec (.resultReserved code) s = .next (s.answer (.result .decodeError)) := by
  have hcode : ResultCode.ofCode (BitVec.ofNat 8 code) = .decodeError :=
    ofCode_of_ge (by rwa [BitVec.toNat_ofNat, Nat.mod_eq_of_lt h])
  rw [← hcode]
  rfl

/-- Settles O12: the seven numbers by evaluation, the reserved ones by `ofCode_of_ge`. -/
theorem aReaderTurnsEveryCodeIntoAName : Obligations.AReaderTurnsEveryCodeIntoAName := by
  refine ⟨fun r => ?_, fun _ => ofCode_of_ge,
    fun _ => ⟨rfl, rfl, fun _ h7 h => exec_resultReserved h7 h⟩⟩
  cases r <;> rfl

/-- Settles O13: each of the three causes is evaluated. -/
theorem haltCausesReadBack : Obligations.HaltCausesReadBack := by
  intro s c p hp
  simp only [List.mem_cons, List.not_mem_nil, or_false] at hp
  obtain rfl | rfl | rfl := hp <;> exact ⟨rfl, rfl, rfl, rfl⟩

/-! ### A step of the model -/

/-- A well-formed instruction in its order runs when it is invoked (R22). -/
theorem invoke_of_due (hwf : i.wellFormed s.cfg.toRawConfig = true)
    (hdue : s.stepDue i = true) : invoke i s = exec i s := by
  simp [invoke, hwf, hdue]

/-- Settles O46: the event at the head, decoded where it is bits, is invoked. -/
theorem aStepRunsTheDecodedInstruction : Obligations.AStepRunsTheDecodedInstruction := by
  intro s i es hwf hdue
  have hinv : invoke i { s with schedule := es } = exec i { s with schedule := es } :=
    invoke_of_due hwf hdue
  refine ⟨fun hs => ?_, fun p w hs hd => ?_⟩
  · simp only [step, hs, deliver, hinv]
  · simp only [step, hs, deliver, hd, hinv]

end Sys2Proof.Machine
end

section
/-! PROOF. The statements of 40_codec.md. Both round trips are facts about `encodeMessage` and
`decodeMessage` alone: a packed `Data` word is even, so it is never the Sync word and DECODE reads the
masked fields back; a word re-encoded from its fields loses bit 0 and no other. -/

namespace Sys2Proof

variable {c : RawConfig} {w : Word} {m m' : Message}

/-- ENCODE of `Data` is the packing with tag 0 (R72, R91). -/
theorem encodeMessage_data_eq_packTagged (c : RawConfig) (n p : Nat) :
    encodeMessage c (.data n p) = packTagged c n p false :=
  (Nat.or_zero _).symm

theorem encodeMessage_data (c : RawConfig) (n p : Nat) :
    encodeMessage c (.data n p) = 2 * (n % 8) + 16 * (p % 2 ^ c.payloadBits) :=
  packData_eq c n p

/-- ENCODE gives an even word for `Data`, so never the Sync word (R72, R91). -/
theorem encodeMessage_data_ne_one (c : RawConfig) (n p : Nat) : encodeMessage c (.data n p) ≠ 1 := by
  rw [encodeMessage_data]
  unfold Word
  omega

/-- What ENCODE gives is a WORD, also for operands that do not fit (R90, R91). -/
theorem encodeMessage_data_lt (c : RawConfig) (n p : Nat) :
    encodeMessage c (.data n p) < 2 ^ c.wordBits := by
  rw [encodeMessage_data_eq_packTagged]
  exact packTagged_lt c n p false

theorem decodeMessage_one (c : RawConfig) : decodeMessage c 1 = .sync := if_pos rfl

theorem decodeMessage_of_ne_one (h : w ≠ 1) :
    decodeMessage c w = .data (w / 2 % 8) (w / 16 % 2 ^ c.payloadBits) := by
  rw [decodeMessage_eq, if_neg h]

/-- DECODE after ENCODE masks the fields of `Data` (R93). -/
theorem decodeMessage_encodeMessage_data (c : RawConfig) (n p : Nat) :
    decodeMessage c (encodeMessage c (.data n p)) = .data (n % 8) (p % 2 ^ c.payloadBits) := by
  obtain ⟨hn, hp, -⟩ := fields_packTagged c n p false
  rw [decodeMessage, if_neg (encodeMessage_data_ne_one c n p), encodeMessage_data_eq_packTagged,
    hn, hp]

theorem fits_data {n p : Nat} :
    (Message.data n p).fits c = true ↔ n < 8 ∧ p < 2 ^ c.payloadBits := by
  simp only [Message.fits, Bool.and_eq_true, decide_eq_true_eq]

/-- On Messages that fit, DECODE undoes ENCODE (R93). -/
theorem decodeMessage_encodeMessage (h : m.fits c = true) :
    decodeMessage c (encodeMessage c m) = m := by
  cases m with
  | sync => exact decodeMessage_one c
  | data n p =>
    obtain ⟨hn, hp⟩ := fits_data.mp h
    rw [decodeMessage_encodeMessage_data, Nat.mod_eq_of_lt hn, Nat.mod_eq_of_lt hp]

/-- ENCODE is injective on Messages that fit, by its left inverse DECODE (R94). -/
theorem encodeMessage_injective_of_fits (h : m.fits c = true) (h' : m'.fits c = true)
    (heq : encodeMessage c m = encodeMessage c m') : m = m' := by
  rw [← decodeMessage_encodeMessage h, heq, decodeMessage_encodeMessage h']

/-- ENCODE after DECODE clears bit 0 of every WORD but the Sync word (R94). -/
theorem encodeMessage_decodeMessage (hw : isWord c w = true) (h1 : w ≠ 1) :
    encodeMessage c (decodeMessage c w) = w - w % 2 := by
  have hfields := word_eq_fields (isWord_iff.mp hw)
  rw [decodeMessage_of_ne_one h1, encodeMessage_data, Nat.mod_mod, Nat.mod_mod]
  unfold Word at *
  omega

/-- DECODE does not read bit 0 of a word other than 0 and 1 (R94). -/
theorem decodeMessage_add_one (heven : w % 2 = 0) (h0 : w ≠ 0) :
    decodeMessage c (w + 1) = decodeMessage c w := by
  have h1 : w ≠ 1 := by rintro rfl; exact absurd heven (by decide)
  have h2 : (w + 1) / 2 = w / 2 := by unfold Word at *; omega
  have h16 : (w + 1) / 16 = w / 16 := by unfold Word at *; omega
  rw [decodeMessage_of_ne_one (fun h => h0 (Nat.succ.inj h)), decodeMessage_of_ne_one h1, h2, h16]

/-- Settles O7: `encodeMessage_decodeMessage` at an even and at an odd word, injectivity from the left
inverse, and the bit DECODE does not read. -/
theorem decodeThenEncodeClearsBitZero : Obligations.DecodeThenEncodeClearsBitZero := by
  intro c
  refine ⟨fun w hw => ?_, fun _ _ => encodeMessage_injective_of_fits,
    fun _ => decodeMessage_add_one, ?_⟩
  · by_cases h1 : w = 1
    · subst h1
      rfl
    · rw [encodeMessage_decodeMessage hw h1]
      obtain h | h := Nat.mod_two_eq_zero_or_one w <;> simp [h, h1]
  · rw [decodeMessage_one, decodeMessage_of_ne_one (by decide)]
    exact nofun

end Sys2Proof

namespace Sys2Proof.Machine

theorem exec_encodeSync (s : State) : exec .encodeSync s = .next (s.answer (.word 1)) := rfl

theorem exec_encodeData (n p : Nat) (s : State) :
    exec (.encodeData n p) s =
      .next (s.answer (.word (encodeMessage s.cfg.toRawConfig (.data n p)))) := rfl

/-- Settles O6: the word is the one ENCODE answers with, and DECODE of it masks the fields; the masks
of fields that fit are the fields. -/
theorem encodeThenDecodeGivesTheMessage : Obligations.EncodeThenDecodeGivesTheMessage := by
  intro s
  refine ⟨⟨1, exec_encodeSync s, exec_decode s 1⟩, fun n p => ⟨_, exec_encodeData n p s, ?_⟩⟩
  have hmask : n &&& 7 = n % 8 := Nat.and_two_pow_sub_one_eq_mod n 3
  rw [exec_decode, decodeMessage_encodeMessage_data, hmask, and_payloadMask]
  refine ⟨rfl, fun hn hp => ?_⟩
  have hlt : p < 2 ^ s.cfg.payloadBits := Nat.lt_of_le_pred (by positivity) hp
  rw [Nat.mod_eq_of_lt hn, Nat.mod_eq_of_lt hlt]
  rfl

/-- Settles O4: ENCODE answers with the packed word, in arithmetic, and the word fits. -/
theorem encodePacksMaskedFields : Obligations.EncodePacksMaskedFields := by
  intro s n p
  rw [exec_encodeData, ← encodeMessage_data]
  exact ⟨exec_encodeSync s, rfl, encodeMessage_data_lt _ n p⟩

/-- Settles O5: DECODE answers with `decodeMessage`, in arithmetic. -/
theorem decodeTestsTheWholeWord : Obligations.DecodeTestsTheWholeWord := by
  intro s w
  rw [exec_decode, decodeMessage_eq]
  rfl

end Sys2Proof.Machine
end

section
/-! PROOF. The statements of 41_elastic_buffer.md. A push that finds room and a pop that finds a Message
are one assignment to one buffer, so a run of such events (O17) is a run of assignments to it
(`State.holding`): the pushes append, and the pops take back what stood in front of them. -/

namespace Sys2Proof.Machine

namespace State

variable {s : State} {i : Nat}

/-! ### One buffer -/

theorem ebAt_setEb_self (q : List Message) (h : i < s.eb.length) : (s.setEb i q).ebAt i = q := by
  rw [ebAt_setEb q h, if_pos rfl]

theorem ebAt_setEb_of_ne (q : List Message) (h : i < s.eb.length) {j : Nat} (hj : j ≠ i) :
    (s.setEb i q).ebAt j = s.ebAt j := by
  rw [ebAt_setEb q h, if_neg hj]

theorem setEb_ebAt (h : i < s.eb.length) : s.setEb i (s.ebAt i) = s := by
  simp [setEb, ebAt, h]

/-- EB_PUSH below B appends at the back (R102). -/
theorem pushLink_of_lt {m : Message} (h : (s.ebAt i).length < s.cfg.b) :
    s.pushLink i m = (s.setEb i (s.ebAt i ++ [m])).answer .none := by
  rw [pushLink, ebPush, if_neg h.not_ge]

/-- EB_PUSH on a full buffer is refused (R102). -/
theorem pushLink_of_full {m : Message} (h : s.cfg.b ≤ (s.ebAt i).length) :
    s.pushLink i m = s.raiseFatal .tideFifoFull := by
  rw [pushLink, ebPush, if_pos h]

/-- EB_POP of an empty buffer leaves it empty (R103). -/
theorem popLink_of_nil (hi : i < s.eb.length) (h : s.ebAt i = []) :
    s.popLink i = s.answer (.popped none) := by
  have hsame : s.setEb i [] = s := h ▸ setEb_ebAt hi
  rw [popLink, h, ebPop, hsame]

/-- EB_POP takes the front and leaves the rest (R103). -/
theorem popLink_of_cons {m : Message} {q : List Message} (h : s.ebAt i = m :: q) :
    s.popLink i = (s.setEb i q).answer (.popped (some m)) := by
  rw [popLink, h, ebPop]

/-- The state `s` once events have left `q` in the buffer of link `i`: `r` was returned last, and `es`
are to come. -/
def holding (s : State) (i : Nat) (q : List Message) (r : Ret) (es : List Event) : State :=
  { s.setEb i q with ret := r, schedule := es }

@[simp] theorem holding_cfg (s : State) (i : Nat) (q : List Message) (r : Ret) (es : List Event) :
    (s.holding i q r es).cfg = s.cfg := rfl

theorem holding_ebAt (hi : i < s.eb.length) (es : List Event) :
    s.holding i (s.ebAt i) s.ret es = { s with schedule := es } := by
  rw [holding, setEb_ebAt hi]

theorem ebAt_holding_self (hi : i < s.eb.length) (q : List Message) (r : Ret) (es : List Event) :
    (s.holding i q r es).ebAt i = q :=
  ebAt_setEb_self q hi

theorem ebAt_holding_of_ne (hi : i < s.eb.length) (q : List Message) (r : Ret) (es : List Event)
    {j : Nat} (hj : j ≠ i) : (s.holding i q r es).ebAt j = s.ebAt j :=
  ebAt_setEb_of_ne q hi hj

theorem setEb_holding (s : State) (i : Nat) (q q' : List Message) (r r' : Ret) (es : List Event) :
    ((s.holding i q r es).setEb i q').answer r' = s.holding i q' r' es := by
  simp only [holding, setEb, answer, List.set_set]

/-- A well-formed operation that is no step of the tick runs when its event comes. -/
theorem step_holding_op {q : List Message} {r : Ret} {o : Instr} (es : List Event)
    (hwf : o.wellFormed s.cfg.toRawConfig = true) (hdue : dueSeq o = none) :
    step (s.holding i q r (.op o :: es)) = exec o (s.holding i q r es) :=
  have hdue' : (s.holding i q r (.op o :: es)).stepDue o = true := by simp only [stepDue, hdue]
  (aStepRunsTheDecodedInstruction (s.holding i q r (.op o :: es)) o es hwf hdue').1 rfl

end State

/-! ### Runs of pushes and of pops -/

section

variable {s : State} {i : Nat} {r : Ret} (hrun : s.halt = .none) (hs : s.ShapeOk)
  (hi : i < s.cfg.degree)
include hrun hs hi

/-- The event EB_PUSH appends to a buffer with room (R102). -/
theorem step_push {q : List Message} {m : Message} (hm : m.fits s.cfg.toRawConfig = true)
    (hroom : q.length < s.cfg.b) (es : List Event) :
    step (s.holding i q r (.op (.ebPush i m) :: es)) = .next (s.holding i (q ++ [m]) .none es) := by
  have hwf : (Instr.ebPush i m).wellFormed s.cfg.toRawConfig = true := by
    simp [Instr.wellFormed, hi, hm]
  have hat : (s.holding i q r es).ebAt i = q := State.ebAt_holding_self (hs.eb ▸ hi) q r es
  have hroom' : ((s.holding i q r es).ebAt i).length < (s.holding i q r es).cfg.b := by
    rwa [hat, State.holding_cfg]
  have hrun' : (s.holding i q r es).halt = .none := hrun
  rw [State.step_holding_op es hwf rfl, exec_ebPush_running hrun', State.pushLink_of_lt hroom', hat,
    State.setEb_holding]

/-- The event EB_POP takes the front of a buffer that has one (R103). -/
theorem step_pop (m : Message) (q : List Message) (es : List Event) :
    step (s.holding i (m :: q) r (.op (.ebPop i) :: es)) =
      .next (s.holding i q (.popped (some m)) es) := by
  have hwf : (Instr.ebPop i).wellFormed s.cfg.toRawConfig = true := decide_eq_true hi
  have hat : (s.holding i (m :: q) r es).ebAt i = m :: q :=
    State.ebAt_holding_self (hs.eb ▸ hi) _ r es
  have hrun' : (s.holding i (m :: q) r es).halt = .none := hrun
  rw [State.step_holding_op es hwf rfl, exec_ebPop_running hrun', State.popLink_of_cons hat,
    State.setEb_holding]

/-- Pushes for which there is room leave their Messages behind what the buffer held, in order. -/
theorem core_run_pushes (k : Nat) (es : List Event) (ms : List Message) :
    ∀ (q : List Message) (r : Ret), (∀ m ∈ ms, m.fits s.cfg.toRawConfig = true) →
      q.length + ms.length ≤ s.cfg.b →
      ∃ r', Sys2Proof.core.run (k + ms.length)
          (s.holding i q r (ms.map (fun m => Event.op (.ebPush i m)) ++ es)) =
        Sys2Proof.core.run k (s.holding i (q ++ ms) r' es) := by
  induction ms with
  | nil => exact fun q r _ _ => ⟨r, by rw [List.append_nil]; rfl⟩
  | cons m ms ih =>
    intro q r hfit hroom
    obtain ⟨hm, hms⟩ := List.forall_mem_cons.mp hfit
    rw [List.length_cons] at hroom
    have hstep := step_push (r := r) hrun hs hi hm (show q.length < s.cfg.b by omega)
      (ms.map (fun m => Event.op (.ebPush i m)) ++ es)
    have hroom' : (q ++ [m]).length + ms.length ≤ s.cfg.b := by
      rw [List.length_append, List.length_singleton]
      omega
    obtain ⟨r', hrest⟩ := ih (q ++ [m]) .none hms hroom'
    rw [List.append_assoc] at hrest
    exact ⟨r', (core_run_succ _ hstep).trans hrest⟩

/-- As many pops as Messages stand in front of `ms` leave `ms`. -/
theorem core_run_pops (ms q : List Message) :
    ∀ r, ∃ r', Sys2Proof.core.run q.length
        (s.holding i (q ++ ms) r (List.replicate q.length (Event.op (.ebPop i)))) =
      .next (s.holding i ms r' []) := by
  induction q with
  | nil => exact fun r => ⟨r, rfl⟩
  | cons m q ih =>
    intro r
    obtain ⟨r', hrest⟩ := ih (.popped (some m))
    exact ⟨r', (core_run_succ _ (step_pop hrun hs hi m (q ++ ms) _)).trans hrest⟩

end

/-! ### The obligations -/

/-- Settles O17: the pushes leave the Messages behind what the buffer held, the pops take just that. -/
theorem buffersAreFirstInFirstOut : Obligations.BuffersAreFirstInFirstOut := by
  intro s i ms hrun hs hi hfit hroom
  have hlen : i < s.eb.length := hs.eb ▸ hi
  obtain ⟨r, hpush⟩ := core_run_pushes hrun hs hi (s.ebAt i).length
    (List.replicate (s.ebAt i).length (Event.op (.ebPop i))) ms (s.ebAt i) s.ret hfit hroom
  obtain ⟨r', hpop⟩ := core_run_pops hrun hs hi ms (s.ebAt i) r
  rw [State.holding_ebAt hlen, Nat.add_comm] at hpush
  exact ⟨s.holding i ms r' [], hpush.trans hpop, State.ebAt_holding_self hlen ..,
    fun _ hj => State.ebAt_holding_of_ne hlen _ _ _ hj, rfl⟩

/-- Settles O14: both only answer. -/
theorem newBufferIsHalfFullAndLevelCounts : Obligations.NewBufferIsHalfFullAndLevelCounts :=
  fun s => ⟨⟨ebNew s.cfg.toRawConfig, rfl, List.length_replicate, fun _ => List.eq_of_mem_replicate⟩,
    fun _ => rfl⟩

/-- Settles O15: the two cases of `pushLink`. -/
theorem pushAppendsOrHalts : Obligations.PushAppendsOrHalts := by
  intro s i m hrun hs hi
  have hlen : i < s.eb.length := hs.eb ▸ hi
  rw [exec_ebPush_running hrun]
  refine ⟨fun hroom => ?_, fun hfull => ?_⟩
  · rw [State.pushLink_of_lt hroom]
    exact ⟨_, rfl, State.ebAt_setEb_self _ hlen, fun _ hj => State.ebAt_setEb_of_ne _ hlen hj, rfl⟩
  · rw [State.pushLink_of_full hfull.ge]
    rfl

/-- Settles O16: the two cases of `popLink`. -/
theorem popTakesTheFrontOrNone : Obligations.PopTakesTheFrontOrNone := by
  intro s i hrun hs hi
  have hlen : i < s.eb.length := hs.eb ▸ hi
  rw [exec_ebPop_running hrun]
  refine ⟨fun hnil => ?_, fun m q hcons => ?_⟩
  · rw [State.popLink_of_nil hlen hnil]
    rfl
  · rw [State.popLink_of_cons hcons]
    exact ⟨_, rfl, State.ebAt_setEb_self _ hlen, rfl,
      fun _ hj => State.ebAt_setEb_of_ne _ hlen hj, rfl⟩

end Sys2Proof.Machine
end

section
/-! PROOF. The statements of 42_link_transport.md. What LT_READ does to one link is a split of its waiting
words at K: the burst is the part in front of the cut, `unread` the part behind it. -/

namespace Sys2Proof.Machine

/-- R113: an empty burst moves the counter one up, at most to its ceiling. -/
@[simp] theorem nextLive_zero (c : RawConfig) (live : Nat) :
    nextLive c live 0 = min (live + 1) c.liveMax := if_pos rfl

/-- R113: a burst with words in it resets the counter. -/
theorem nextLive_of_ne_zero (c : RawConfig) (live : Nat) {n : Nat} (h : n ≠ 0) :
    nextLive c live n = 0 := if_neg h

namespace State

variable {s : State} {i : Nat}

/-! ### The burst of one link -/

/-- The words that still wait on link `i` after one read (R112). -/
def unread (s : State) (i : Nat) : List Word := (s.ports.rx.getD i []).drop s.cfg.k

theorem length_burst_le (s : State) (i : Nat) : (s.burst i).length ≤ s.cfg.k :=
  List.length_take_le ..

theorem burst_append_unread (s : State) (i : Nat) :
    s.burst i ++ s.unread i = s.ports.rx.getD i [] := List.take_append_drop ..

/-- Words stay behind only when all K poll attempts took one. -/
theorem length_burst_of_unread_ne_nil (h : s.unread i ≠ []) : (s.burst i).length = s.cfg.k := by
  have hlt : s.cfg.k < (s.ports.rx.getD i []).length := by simpa [unread] using h
  exact List.length_take_of_le hlt.le

/-! ### Link by link, what LT_READ returns and leaves -/

theorem ltRead_getD (hi : i < s.cfg.degree) : s.ltRead.1.getD i [] = s.burst i := by
  rw [show s.ltRead.1 = perLink s.cfg.degree s.burst from rfl, getD_perLink, if_pos hi]

theorem ltRead_ports_rx_getD (hi : i < s.cfg.degree) :
    s.ltRead.2.ports.rx.getD i [] = s.unread i := by
  rw [show s.ltRead.2.ports.rx = perLink s.cfg.degree s.unread from rfl, getD_perLink, if_pos hi]

theorem ltRead_liveAt (hi : i < s.cfg.degree) :
    s.ltRead.2.liveAt i = nextLive s.cfg.toRawConfig (s.liveAt i) (s.burst i).length := by
  rw [← ltRead_getD hi, liveAt, show s.ltRead.2.live = perLink s.cfg.degree fun j =>
    nextLive s.cfg.toRawConfig (s.liveAt j) (s.ltRead.1.getD j []).length from rfl, getD_perLink,
    if_pos hi]

end State

/-! ### The obligations -/

/-- Settles O19: on each link the burst and what stays are the two parts of the split, and LIVE follows
the length of the burst. -/
theorem linkReadTakesAtMostKWords : Obligations.LinkReadTakesAtMostKWords := by
  intro s hrun
  refine ⟨_, s.ltRead.1, exec_ltRead_running hrun, rfl, length_perLink .., fun i hi => ?_, rfl⟩
  rw [State.answer_ports, State.ltRead_ports_rx_getD hi, State.ltRead_getD hi]
  have hlive := State.ltRead_liveAt hi
  refine ⟨s.length_burst_le i, s.burst_append_unread i, State.length_burst_of_unread_ne_nil,
    fun hnil => ?_, fun hne => ?_⟩
  · rw [hnil, List.length_nil, nextLive_zero] at hlive
    exact hlive
  · exact hlive.trans (nextLive_of_ne_zero _ _ (mt List.length_eq_zero_iff.mp hne))

/-- Settles O18: the words become the output of the links. -/
theorem linkWriteHandsOverTheWords : Obligations.LinkWriteHandsOverTheWords :=
  fun _ ws hrun => exec_ltWrite_running hrun ws

/-- Settles O20: the flags are `active`, link by link. -/
theorem activeMeansBelowTheThreshold : Obligations.ActiveMeansBelowTheThreshold :=
  fun s => ⟨s.ltActive, rfl, length_perLink .., fun _ hi => (getElem?_perLink ..).trans (if_pos hi)⟩

end Sys2Proof.Machine
end

section
/-! PROOF. The statements of 43_channel_controller.md about each of the seven steps by itself (O21, O23 to
O30): per step, what it leaves in each link's registers, and its frame. A link is `Crowded` when T4 finds
no room for the Messages it received. -/

namespace Sys2Proof.Machine

/-! ### T1 and the producer classes -/

namespace State

variable {s : State} {w : Word}

/-- T1 with no word waiting only moves on (R122). -/
theorem t1_of_none (h : s.ports.user = none) : s.t1 = (s.goto .t2).answer .none := by
  have hports : ({ s.ports with user := none } : Ports) = s.ports := by rw [← h]
  simp only [t1, userRead, h, hports]

theorem ingest_one (s : State) : s.ingest 1 = s.rejectSync := by
  rw [ingest, decodeMessage_one]

theorem ingest_of_badNeighbor (h1 : w ≠ 1) (hd : s.cfg.degree ≤ w / 2 % 8) :
    s.ingest w = s.rejectNeighbor := by
  rw [ingest, decodeMessage_of_ne_one h1]
  exact if_pos hd

theorem ingest_of_neighbor (h1 : w ≠ 1) (hd : w / 2 % 8 < s.cfg.degree) :
    s.ingest w = s.stage (w / 2 % 8) (w / 16 % 2 ^ s.cfg.payloadBits) := by
  rw [ingest, decodeMessage_of_ne_one h1]
  exact if_neg hd.not_ge

/-- A staged Message stands in the slot of its link alone (R125). -/
theorem outAt_stage {n : Nat} (hlen : s.out.length = s.cfg.degree) (hn : n < s.cfg.degree) (p j : Nat) :
    (s.stage n p).outAt j = if j = n then .data n p else s.outAt j :=
  outAt_setOut _ (hlen ▸ hn) j

end State

/-- Settles O21: no word, the Sync word, a neighbor that is no link, and a staged word. -/
theorem firstStepIngestsTheProducerWord : Obligations.FirstStepIngestsTheProducerWord := by
  intro s hrun hs
  rw [exec_tickT1_running hrun]
  refine ⟨fun h => by rw [State.t1_of_none h]; rfl, fun w hw => ?_⟩
  rw [State.t1_of_waiting hw]
  refine ⟨fun h1 => ?_, fun h1 hd => ?_, fun h1 hd => ?_⟩
  · rw [h1, State.ingest_one]
    rfl
  · rw [State.ingest_of_badNeighbor (s := s.userRead.2) h1 hd]
    rfl
  · rw [State.ingest_of_neighbor (s := s.userRead.2) h1 hd]
    have hout := State.outAt_stage (s := s.userRead.2) hs.out hd (w / 16 % 2 ^ s.cfg.payloadBits)
    exact ⟨_, rfl, (hout _).trans (if_pos rfl), fun j hj => (hout j).trans (if_neg hj), rfl⟩

/-- Settles O23: the two errors are raised, the Message is staged. -/
theorem producerClassesRejectOrStage : Obligations.ProducerClassesRejectOrStage := by
  intro s n p tag hrun hs
  refine ⟨exec_userSync_running hrun, exec_userBadnbr_running hrun n p tag, fun hn => ?_⟩
  have hout := State.outAt_stage hs.out hn p
  exact ⟨_, exec_userData_running hrun n p tag, (hout n).trans (if_pos rfl),
    fun j hj => (hout j).trans (if_neg hj), rfl⟩

/-! ### T2 -/

theorem isWord_encodeMessage (c : RawConfig) (m : Message) : isWord c (encodeMessage c m) = true := by
  cases m with
  | sync => exact isWord_one c
  | data n p => exact isWord_iff.mpr (encodeMessage_data_lt c n p)

/-- Settles O24: the words are those of the slots, link by link. -/
theorem secondStepSendsOneWordPerLink : Obligations.SecondStepSendsOneWordPerLink := fun _ hrun =>
  ⟨_, exec_tickT2_running hrun, length_perLink .., fun _ hi =>
    ⟨(getElem?_perLink ..).trans (if_pos hi), isWord_encodeMessage ..⟩⟩

/-! ### T3 -/

/-- What a link stores for a word it received: `Sync`, or the payload with the link's number (R129). -/
theorem retag_decodeMessage (c : RawConfig) (i : Nat) (w : Word) :
    retag i (decodeMessage c w) =
      if w = 1 then .sync else .data i (w / 16 % 2 ^ c.payloadBits) := by
  rw [decodeMessage_eq]
  split <;> rfl

theorem retag_decodeMessage_eq_sync (c : RawConfig) (i : Nat) (w : Word) :
    retag i (decodeMessage c w) = .sync ↔ w = 1 := by
  rw [retag_decodeMessage]
  split <;> simp [*]

namespace State

variable {s : State} {i : Nat}

@[simp] theorem length_received (s : State) (i : Nat) : (s.received i).length = (s.burst i).length :=
  List.length_map _

/-- Decoding and retagging keep what is `Sync` and what is `Data` (R130). -/
theorem syncCount_received (s : State) (i : Nat) :
    syncCount (s.received i) = (s.burst i).countP (· == 1) := by
  rw [syncCount, received, List.countP_map]
  refine List.countP_congr fun w _ => ?_
  simp [retag_decodeMessage_eq_sync]

theorem dataCount_received (s : State) (i : Nat) :
    dataCount (s.received i) = (s.burst i).countP (· != 1) := by
  rw [dataCount, received, List.countP_map]
  refine List.countP_congr fun w _ => ?_
  simp [retag_decodeMessage_eq_sync]

theorem rxmAt_t3 (hi : i < s.cfg.degree) : s.t3.rxmAt i = s.received i :=
  (rxmAt_of_rxm (t := s.t3) rfl i).trans (if_pos hi)

theorem syncCntAt_t3 (hi : i < s.cfg.degree) :
    s.t3.syncCntAt i = countUp s.cfg.toRawConfig (s.syncCntAt i) (syncCount (s.received i)) :=
  (getD_perLink ..).trans (if_pos hi)

theorem dataCntAt_t3 (hi : i < s.cfg.degree) :
    s.t3.dataCntAt i = countUp s.cfg.toRawConfig (s.dataCntAt i) (dataCount (s.received i)) :=
  (getD_perLink ..).trans (if_pos hi)

/-- LIVE of a link after T3, by the length of its burst (R113, R131). -/
theorem liveAt_t3 (hi : i < s.cfg.degree) :
    s.t3.liveAt i = nextLive s.cfg.toRawConfig (s.liveAt i) (s.burst i).length :=
  ltRead_liveAt hi

theorem ports_rx_t3 (hi : i < s.cfg.degree) : s.t3.ports.rx.getD i [] = s.unread i :=
  ltRead_ports_rx_getD hi

end State

/-- Settles O25: burst and unread words are the two parts of the split at K, and RXM, the counters and LIVE
follow from the burst. -/
theorem thirdStepDecodesRetagsAndCounts : Obligations.ThirdStepDecodesRetagsAndCounts := by
  intro s hrun
  refine ⟨s.t3, exec_tickT3_running hrun, fun i hi => ?_, rfl⟩
  refine ⟨s.burst i, s.unread i, (s.burst_append_unread i).symm, s.length_burst_le i,
    State.length_burst_of_unread_ne_nil, State.ports_rx_t3 hi, ?_, fun j hj => ?_, ?_, ?_,
    fun hnil => ?_, fun hne => ?_⟩
  · rw [State.rxmAt_t3 hi, State.length_received]
  · rw [State.rxmAt_t3 hi, State.received, List.getElem?_map, List.getElem?_eq_getElem hj,
      Option.map_some, retag_decodeMessage]
  · rw [State.syncCntAt_t3 hi, State.syncCount_received]
    rfl
  · rw [State.dataCntAt_t3 hi, State.dataCount_received]
    rfl
  · rw [State.liveAt_t3 hi, hnil, List.length_nil, nextLive_zero]
  · rw [State.liveAt_t3 hi]
    exact nextLive_of_ne_zero _ _ (mt List.length_eq_zero_iff.mp hne)

/-! ### T4 -/

/-- The links before link `k` in ascending order, `k`, and the links after it. -/
theorem exists_range_eq_append_cons {k n : Nat} (h : k < n) :
    ∃ post, List.range n = List.range k ++ k :: post := by
  obtain ⟨m, rfl⟩ := Nat.exists_eq_add_of_lt h
  exact ⟨_, by rw [Nat.add_assoc, List.range_add, List.range_succ_eq_map, List.map_cons]; rfl⟩

namespace State

variable {s : State} {k : Nat}

/-- Link `i` is enabled and has no room for the Messages it received (R133). -/
def Crowded (s : State) (i : Nat) : Prop :=
  s.enabled i = true ∧ s.cfg.b < s.level i + (s.rxmAt i).length

theorem not_crowded_iff {s : State} {i : Nat} :
    ¬ s.Crowded i ↔ (s.enabled i = true → s.level i + (s.rxmAt i).length ≤ s.cfg.b) := by
  rw [Crowded, not_and, Nat.not_lt]

theorem mem_links {i : Nat} : i ∈ s.links ↔ i < s.cfg.degree := List.mem_range

/-- T4 fills, and halts the block when the fill stopped at a full buffer (R132, R133). -/
theorem t4_eq (s : State) :
    s.t4 = if (s.fillLinks s.links).2 then (s.fillLinks s.links).1.raiseFatal .tideFifoFull
      else ((s.fillLinks s.links).1.goto .t5).answer .none := by
  unfold t4
  rcases s.fillLinks s.links with ⟨u, _ | _⟩ <;> rfl

/-- With no crowded link T4 goes on to T5 (R132). -/
theorem t4_of_room (hlen : s.eb.length = s.cfg.degree) (h : ∀ i < s.cfg.degree, ¬ s.Crowded i) :
    s.t4 = { s with eb := s.t4.eb, seq := .t5, ret := .none } ∧
      ∀ j, s.t4.ebAt j =
        if j < s.cfg.degree ∧ s.enabled j = true then s.ebAt j ++ s.rxmAt j else s.ebAt j := by
  have hframe := fillLinks_frame s.links s
  obtain ⟨hflag, heb⟩ := fillLinks_room s.links s List.nodup_range
    (fun i hi => hlen ▸ mem_links.mp hi) (fun i hi => not_crowded_iff.mp (h i (mem_links.mp hi)))
  have ht4 : s.t4 = ((s.fillLinks s.links).1.goto .t5).answer .none := by rw [t4_eq, hflag]; rfl
  refine ⟨by rw [ht4, hframe]; rfl, fun j => ?_⟩
  rw [ht4]
  simp only [mem_links] at heb
  exact heb j

/-- At the first crowded link T4 halts, with the links before it filled and its own buffer full (R133). -/
theorem t4_of_crowded (hlen : s.eb.length = s.cfg.degree) (hk : k < s.cfg.degree)
    (hle : s.level k ≤ s.cfg.b) (hck : s.Crowded k) (h : ∀ i < k, ¬ s.Crowded i) :
    s.t4 = ({ s with eb := s.t4.eb } : State).raiseFatal .tideFifoFull ∧
      ∀ j, s.t4.ebAt j = if j = k then s.ebAt k ++ (s.rxmAt k).take (s.cfg.b - s.level k)
        else if j < k ∧ s.enabled j = true then s.ebAt j ++ s.rxmAt j else s.ebAt j := by
  obtain ⟨post, hlinks⟩ := exists_range_eq_append_cons hk
  have hframe := fillLinks_frame s.links s
  obtain ⟨hflag, heb⟩ := fillLinks_full (List.range k) post k s (hlinks ▸ List.nodup_range)
    (fun i hi => hlen ▸ (List.mem_range.mp hi).trans hk) (hlen ▸ hk)
    (fun i hi => not_crowded_iff.mp (h i (List.mem_range.mp hi))) hck.1 hle hck.2
  rw [← hlinks, ← links] at hflag heb
  have ht4 : s.t4 = (s.fillLinks s.links).1.raiseFatal .tideFifoFull := by rw [t4_eq, hflag]; rfl
  refine ⟨by rw [ht4, hframe]; rfl, fun j => ?_⟩
  rw [ht4]
  simp only [List.mem_range] at heb
  exact heb j

end State

/-- Settles O26: no enabled link is crowded. -/
theorem fourthStepFillsTheEnabledLinks : Obligations.FourthStepFillsTheEnabledLinks := by
  intro s hrun hs hroom
  obtain ⟨hframe, heb⟩ := State.t4_of_room hs.eb fun i hi => State.not_crowded_iff.mpr (hroom i hi)
  exact ⟨_, exec_tickT4_running hrun, fun i hi he => (heb i).trans (if_pos ⟨hi, he⟩),
    fun i he => (heb i).trans (if_neg (by simp [he])), hframe⟩

/-- Settles O27: link k is the first crowded one. -/
theorem fourthStepHaltsAtTheFirstOverflow : Obligations.FourthStepHaltsAtTheFirstOverflow := by
  intro s k hrun hs hle hk he hfull hroom
  obtain ⟨hframe, heb⟩ := State.t4_of_crowded hs.eb hk (hle.at k) ⟨he, hfull⟩
    fun i hi => State.not_crowded_iff.mpr (hroom i hi)
  have hkeb := (heb k).trans (if_pos rfl)
  refine ⟨_, exec_tickT4_running hrun, fun i hi hei => ?_, hkeb, ?_, fun i hi => ?_, hframe⟩
  · rw [heb, if_neg hi.ne, if_pos ⟨hi, hei⟩]
  · have hb : (s.ebAt k).length ≤ s.cfg.b := hle.at k
    simp only [State.level, ebLevel] at hfull hkeb ⊢
    rw [hkeb, List.length_append, List.length_take]
    omega
  · rcases hi with hdis | hki
    · have hik : i ≠ k := by
        rintro rfl
        simp [hdis] at he
      rw [heb, if_neg hik, if_neg (by simp [hdis])]
    · rw [heb, if_neg hki.ne', if_neg (by omega)]

/-! ### T5 -/

theorem countUp_zero {c : RawConfig} {n : Nat} (h : n < 2 ^ c.cntBits) : countUp c n 0 = n :=
  Nat.mod_eq_of_lt h

namespace State

variable {s : State} {i : Nat}

theorem CountersOk.emptyCntAt_lt (hs : s.CountersOk) (i : Nat) :
    s.emptyCntAt i < 2 ^ s.cfg.cntBits :=
  (forall_mem_iff_getD (by positivity)).mp hs.emptyCnt i

/-- The drain of an enabled link takes the front of its buffer, that of another takes nothing (R134). -/
theorem drained_fst (s : State) (i : Nat) :
    (s.drained i).1 = if s.enabled i then (s.ebAt i).head? else none := by
  unfold drained
  split
  · cases s.ebAt i <;> rfl
  · rfl

/-- A link is warned of when it is enabled and its buffer is empty (R137). -/
theorem starved_iff : s.starved i = true ↔ s.enabled i = true ∧ s.ebAt i = [] := by
  rw [starved, drained_fst]
  cases s.enabled i <;> simp

theorem starved_of_disabled (h : s.enabled i = false) : s.starved i = false := by
  rw [starved, h, Bool.false_and]

theorem starved_of_cons {m : Message} {q : List Message} (h : s.ebAt i = m :: q) :
    s.starved i = false := by
  rw [Bool.eq_false_iff, Ne, starved_iff, h]
  exact fun hh => nomatch hh.2

theorem ebAt_t5 (hi : i < s.cfg.degree) :
    s.t5.ebAt i = if s.enabled i then (s.ebAt i).tail else s.ebAt i := by
  rw [← drained_snd]
  exact (getD_perLink ..).trans (if_pos hi)

theorem emptyCntAt_t5 (hi : i < s.cfg.degree) : s.t5.emptyCntAt i =
    countUp s.cfg.toRawConfig (s.emptyCntAt i) (if s.starved i then 1 else 0) :=
  (getD_perLink ..).trans (if_pos hi)

theorem warn_t5 (hi : i < s.cfg.degree) : s.t5.outs.warn[i]? = some (s.starved i) :=
  (getElem?_perLink ..).trans (if_pos hi)

theorem fwd_t5 (s : State) : s.t5.outs.fwd =
    s.outs.fwd ++ s.links.flatMap fun i => forwarded s.cfg.toRawConfig (s.drained i).1 := rfl

end State

/-- Settles O28: a disabled link, an enabled one with an empty buffer and one with a front; the words
forwarded are those of the fronts that are `Data`. -/
theorem fifthStepDrainsOneMessagePerLink : Obligations.FifthStepDrainsOneMessagePerLink := by
  intro s hrun hs
  refine ⟨s.t5, exec_tickT5_running hrun, fun i hi => ?_, ?_, rfl⟩
  · have hcnt := countUp_zero (hs.counters.emptyCntAt_lt i)
    rw [State.ebAt_t5 hi, State.emptyCntAt_t5 hi, State.warn_t5 hi]
    refine ⟨fun hdis => ?_, fun hen hnil => ?_, fun m q hen hcons => ?_⟩
    · simp [hdis, State.starved_of_disabled hdis, hcnt]
    · simp [hen, hnil, State.starved_iff.mpr ⟨hen, hnil⟩, countUp]
    · simp [hen, hcons, State.starved_of_cons hcons, hcnt]
  · rw [State.fwd_t5, List.filterMap_eq_flatMap_toList]
    congr 2
    funext i
    rw [State.drained_fst]
    cases s.enabled i
    · rfl
    · rcases s.ebAt i with _ | ⟨_ | ⟨n, p⟩, q⟩ <;> rfl

/-! ### T6 and T7 -/

namespace State

/-- T6 copies the levels and the counters (R138). -/
theorem t6_eq {s : State} (hs : s.ShapeOk) :
    s.t6 = { s with
      snap := { s.snap with
        level := s.eb.map List.length, syncCnt := s.syncCnt, dataCnt := s.dataCnt,
        emptyCnt := s.emptyCnt }
      seq := .t7, ret := .none } := by
  have hsync : perLink s.cfg.degree s.syncCntAt = s.syncCnt := hs.syncCnt ▸ perLink_getD s.syncCnt 0
  have hdata : perLink s.cfg.degree s.dataCntAt = s.dataCnt := hs.dataCnt ▸ perLink_getD s.dataCnt 0
  have hempty : perLink s.cfg.degree s.emptyCntAt = s.emptyCnt :=
    hs.emptyCnt ▸ perLink_getD s.emptyCnt 0
  rw [t6, hsync, hdata, hempty, levels_eq hs]
  rfl

theorem t7_fcDegree (s : State) : s.t7.fcDegree = s.liveCount := by rw [t7_eq]

theorem t7_result (s : State) :
    s.t7.result = s.t7Result ((s.fcSetDegree s.liveCount).fcRun s.levels).1 := by rw [t7_eq]

/-- The tick returns its result (R141). -/
theorem t7_ret (s : State) : s.t7.ret = .result s.t7.result := by rw [t7_eq]

theorem t7_lastError (s : State) :
    s.t7.lastError = if s.t7.result = .ok then s.lastError else s.t7.result := by rw [t7_eq]

/-- The snapshot T7 leaves shows the block's registers (R140, R141). -/
theorem t7_snap {s : State} (h : s.snap.lastError = s.lastError) :
    s.t7.snap = { s.snap with
      lastCorr := s.t7.lastCorr, divState := s.t7.divState, degree := s.t7.fcDegree
      lastError := s.t7.lastError } := by
  rw [t7_eq, t7Snap, h]

end State

/-- Settles O29: the arrays read link by link are the arrays. -/
theorem sixthStepRecordsLevelsAndCounters : Obligations.SixthStepRecordsLevelsAndCounters := by
  intro s hrun hs
  rw [exec_tickT6_running hrun, State.t6_eq hs]

/-- Settles O30: FC_RUN, run by itself on the new degree, leaves what T7 takes over. -/
theorem seventhStepCorrectsAndCompletes : Obligations.SeventhStepCorrectsAndCompletes := by
  intro s hrun hs
  have hdeg := s.t7_fcDegree
  have hres := s.t7_result
  have herr := s.t7_lastError
  have hsnap := State.t7_snap hs.errors.snapError
  have houts := congrArg State.outs ((s.fcSetDegree s.liveCount).fcRun_frame s.levels)
  refine ⟨s.t7, _, exec_fcRun_running (s := s.fcSetDegree s.t7.fcDegree) hrun _,
    exec_tickT7_running hrun, ?_⟩
  rw [← State.levels_eq hs.shape, hdeg]
  refine ⟨List.countP_eq_length_filter, fun hret => ?_, fun hret => ?_, fun hok => ?_, fun hne => ?_,
    ?_, ?_⟩
  · rw [hres, Ret.fc.inj hret]
    rfl
  · rw [hres, Ret.fc.inj hret]
    rfl
  · rw [herr, if_pos hok]
  · rw [herr, if_neg hne]
  · rw [hsnap, hdeg, State.t7_eq]
    rfl
  · rw [State.answer_outs, houts, State.t7_eq]
    rfl

end Sys2Proof.Machine
end

section
/-! PROOF. The statements of 43_channel_controller.md about the whole tick (O38, O40, O42 to O44), put
together from the lemmas about its steps. `afterT3` and `filled` are the states of a tick after T3 and after
T4; a tick without overflow ends with T5, T6 and T7 of `filled`, one with overflow in `filled` itself. -/

namespace Sys2Proof.Machine

/-- Settles O38: TICK finds the block halted. -/
theorem aHaltedTickDoesNothing : Obligations.AHaltedTickDoesNothing := by
  intro s hh
  have htick : exec .tick s = .next s.haltedTick := congrArg Host.Outcome.next (if_neg hh)
  have hret : s.haltedTick.ret = .result (haltResult s.halt) := rfl
  exact ⟨_, htick, rfl, rfl, rfl, rfl, rfl, rfl, rfl, fun h => by rw [hret, h]; rfl,
    fun h => by rw [hret, h]; rfl⟩

namespace State

variable {s : State} {i : Nat}

theorem enabled_of_cfg_eq {s t : State} (h : t.cfg = s.cfg) (i : Nat) : t.enabled i = s.enabled i := by
  rw [enabled, h, enabled]

/-! ### What T4 to T7 leave alone -/

@[simp] theorem t4_ports (s : State) : s.t4.ports = s.ports := by
  obtain ⟨_, -, h | h⟩ := t4_cases s <;> rw [h]
  rfl

@[simp] theorem t4_outs (s : State) : s.t4.outs = s.outs := by
  obtain ⟨_, -, h | h⟩ := t4_cases s <;> rw [h]
  rfl

@[simp] theorem t4_live (s : State) : s.t4.live = s.live := by
  obtain ⟨_, -, h | h⟩ := t4_cases s <;> rw [h]
  rfl

theorem lastSteps_halt (s : State) : s.t5.t6.t7.halt = s.halt := by simp
theorem lastSteps_eb (s : State) : s.t5.t6.t7.eb = s.t5.eb := by rw [t7_eq]; rfl
theorem lastSteps_live (s : State) : s.t5.t6.t7.live = s.live := by rw [t7_eq]; rfl
theorem lastSteps_ports (s : State) : s.t5.t6.t7.ports = s.ports := by rw [t7_eq]; rfl
theorem lastSteps_tx (s : State) : s.t5.t6.t7.outs.tx = s.outs.tx := by rw [t7_eq]; rfl
theorem lastSteps_fwd (s : State) : s.t5.t6.t7.outs.fwd = s.t5.outs.fwd := by rw [t7_eq]; rfl
theorem lastSteps_warn (s : State) : s.t5.t6.t7.outs.warn = s.t5.outs.warn := by rw [t7_eq]; rfl
theorem lastSteps_fcDegree (s : State) : s.t5.t6.t7.fcDegree = s.liveCount := by rw [t7_eq]; rfl

/-! ### The tick after T3 -/

/-- The state of a tick after T3, its last step that reads a port but the actuator. -/
def afterT3 (s : State) : State := s.tickStart.t1.t2.t3

@[simp] theorem afterT3_cfg (s : State) : s.afterT3.cfg = s.cfg := by simp [afterT3]
@[simp] theorem afterT3_halt (s : State) : s.afterT3.halt = s.halt := by simp [afterT3]
@[simp] theorem afterT3_schedule (s : State) : s.afterT3.schedule = s.schedule := by simp [afterT3]
@[simp] theorem afterT3_eb (s : State) : s.afterT3.eb = s.eb := by rw [afterT3, threeSteps_eq]
@[simp] theorem afterT3_result (s : State) : s.afterT3.result = s.tickStart.t1.result := by
  rw [afterT3, threeSteps_eq]
@[simp] theorem afterT3_fwd (s : State) : s.afterT3.outs.fwd = [] := by
  rw [afterT3, threeSteps_eq]
  rfl

/-- What every tick that starts hands to the links (R127). -/
theorem afterT3_tx (s : State) : s.afterT3.outs.tx = some (perLink s.cfg.degree fun i =>
    encodeMessage s.cfg.toRawConfig (s.tickStart.t1.outAt i)) := by
  rw [afterT3, threeSteps_eq]

theorem afterT3_ports (s : State) : s.afterT3.ports =
    { s.ports with user := none, rx := perLink s.cfg.degree s.unread } := by
  rw [afterT3, threeSteps_eq]
  rfl

theorem ebAt_afterT3 (s : State) (i : Nat) : s.afterT3.ebAt i = s.ebAt i := by
  rw [ebAt, afterT3_eb, ebAt]

theorem enabled_afterT3 (s : State) (i : Nat) : s.afterT3.enabled i = s.enabled i :=
  enabled_of_cfg_eq s.afterT3_cfg i

theorem rxmAt_afterT3 (hi : i < s.cfg.degree) : s.afterT3.rxmAt i = s.received i := by
  have hrxm : s.afterT3.rxm = perLink s.cfg.degree s.received := by rw [afterT3, threeSteps_eq]
  rw [rxmAt_of_rxm hrxm, if_pos hi]

theorem liveAt_afterT3 (hi : i < s.cfg.degree) : s.afterT3.liveAt i =
    nextLive s.cfg.toRawConfig (s.liveAt i) (s.burst i).length := by
  rw [afterT3, threeSteps_eq, liveAt, getD_perLink, if_pos hi, getD_perLink, if_pos hi]

/-- The links for which T4 of a tick has no room (R143). -/
theorem crowded_afterT3_iff (hi : i < s.cfg.degree) : s.afterT3.Crowded i ↔
    s.enabled i = true ∧ s.cfg.b < s.level i + (s.burst i).length := by
  rw [Crowded, enabled_afterT3, afterT3_cfg, rxmAt_afterT3 hi, length_received, level, ebAt_afterT3,
    level]

theorem overflows_iff : s.Overflows ↔ ∃ i < s.cfg.degree, s.afterT3.Crowded i :=
  exists_congr fun _ => and_congr_right fun hi => (crowded_afterT3_iff hi).symm

/-! ### The tick after T4 -/

/-- The state of a tick after T4. -/
def filled (s : State) : State := s.afterT3.t4

@[simp] theorem filled_cfg (s : State) : s.filled.cfg = s.cfg := by simp [filled]
@[simp] theorem filled_schedule (s : State) : s.filled.schedule = s.schedule := by simp [filled]

theorem enabled_filled (s : State) (i : Nat) : s.filled.enabled i = s.enabled i :=
  enabled_of_cfg_eq s.filled_cfg i

/-- A tick in which every enabled link has room fills them all (R132). -/
theorem filled_of_room (hlen : s.eb.length = s.cfg.degree) (h : ¬ s.Overflows) :
    s.filled = { s.afterT3 with eb := s.filled.eb, seq := .t5, ret := .none } ∧
      ∀ j < s.cfg.degree, s.filled.ebAt j =
        if s.enabled j then s.ebAt j ++ s.received j else s.ebAt j := by
  obtain ⟨hframe, heb⟩ := t4_of_room (s := s.afterT3) (by simpa using hlen)
    fun i hi hc => h (overflows_iff.mpr ⟨i, by simpa using hi, hc⟩)
  refine ⟨hframe, fun j hj => ?_⟩
  rw [filled, heb, enabled_afterT3, afterT3_cfg, ebAt_afterT3, rxmAt_afterT3 hj]
  simp only [hj, true_and]

theorem filled_halt_of_room (hrun : s.halt = .none) (hlen : s.eb.length = s.cfg.degree)
    (h : ¬ s.Overflows) : s.filled.halt = .none := by
  rw [(filled_of_room hlen h).1]
  exact s.afterT3_halt.trans hrun

/-- A tick in which an enabled link has no room halts in T4, and leaves the disabled links (R133). -/
theorem filled_of_overflow (hlen : s.eb.length = s.cfg.degree) (hle : s.LevelsOk) (h : s.Overflows) :
    s.filled.halt = .tideFifoFull ∧ ∀ j, s.enabled j = false → s.filled.ebAt j = s.ebAt j := by
  classical
  obtain ⟨i, hi, hc⟩ := overflows_iff.mp h
  have hex : ∃ k, s.afterT3.Crowded k := ⟨i, hc⟩
  have hk : s.afterT3.Crowded (Nat.find hex) := Nat.find_spec hex
  have hlt : Nat.find hex < s.afterT3.cfg.degree :=
    (Nat.find_min' hex hc).trans_lt (by simpa using hi)
  obtain ⟨hframe, heb⟩ := t4_of_crowded (by simpa using hlen) hlt
    (by simpa [level, ebLevel, ebAt_afterT3] using hle.at _) hk fun _ hj => Nat.find_min hex hj
  refine ⟨congrArg State.halt hframe, fun j hj => ?_⟩
  have hdis : s.afterT3.enabled j = false := (s.enabled_afterT3 j).trans hj
  rw [filled, heb, if_neg, if_neg, ebAt_afterT3]
  · simp [hdis]
  · rintro rfl
    exact absurd hk.1 (by simp [hdis])

/-- A tick without overflow runs all seven steps. -/
theorem tick_of_room (hrun : s.halt = .none) (hidle : s.seq = .idle)
    (hlen : s.eb.length = s.cfg.degree) (h : ¬ s.Overflows) :
    exec .tick s = .next s.filled.t5.t6.t7 := by
  have hhalt := filled_halt_of_room hrun hlen h
  rcases sevenSteps_cases (s := s.tickStart) hrun with ⟨-, h7⟩ | ⟨h4, -⟩
  · rw [tick_running hrun hidle, h7, filled, afterT3]
  · exact absurd (hhalt.symm.trans h4) nofun

/-- A tick with overflow ends in T4. -/
theorem tick_of_overflow (hrun : s.halt = .none) (hidle : s.seq = .idle)
    (hlen : s.eb.length = s.cfg.degree) (hle : s.LevelsOk) (h : s.Overflows) :
    exec .tick s = .next s.filled := by
  have hhalt := (filled_of_overflow hlen hle h).1
  rcases sevenSteps_cases (s := s.tickStart) hrun with ⟨h4, -⟩ | ⟨-, -, h7⟩
  · exact absurd (hhalt.symm.trans h4) nofun
  · rw [tick_running hrun hidle, h7, filled, afterT3]

/-- The buffer of a link after a tick without overflow: the burst goes in before one Message comes out
(R142). -/
theorem ebAt_tick_of_room (hlen : s.eb.length = s.cfg.degree) (h : ¬ s.Overflows)
    (hi : i < s.cfg.degree) : s.filled.t5.t6.t7.ebAt i =
      if s.enabled i then (s.ebAt i ++ s.received i).tail else s.ebAt i := by
  rw [ebAt, lastSteps_eb, ← ebAt, ebAt_t5 (by simpa using hi), enabled_filled,
    (filled_of_room hlen h).2 i hi]
  split <;> rfl

end State

/-- Settles O40: with an overflow the tick ends in `filled`, without one each enabled level is that of the
buffer and the burst, less the Message T5 pops. -/
theorem aTickMovesEachLevelByItsBurstLessOne :
    Obligations.ATickMovesEachLevelByItsBurstLessOne := by
  intro s hs hrun hidle
  have hlen := hs.shape.eb
  by_cases hov : s.Overflows
  · have htick := State.tick_of_overflow hrun hidle hlen hs.levels hov
    obtain ⟨hhalt, hdis⟩ := State.filled_of_overflow hlen hs.levels hov
    have hseq : s.filled.seq = .idle := by
      have := State.sevenSteps_seq (s := s.tickStart) hrun
      rwa [Host.Outcome.next.inj ((State.tick_running hrun hidle).symm.trans htick)] at this
    exact ⟨_, htick, hseq, iff_of_true hhalt hov, fun h => absurd hov h, fun i _ => hdis i⟩
  · have hhalt : s.filled.t5.t6.t7.halt = .none :=
      (State.lastSteps_halt _).trans (State.filled_halt_of_room hrun hlen hov)
    refine ⟨_, State.tick_of_room hrun hidle hlen hov, State.t7_seq _, iff_of_false ?_ hov,
      fun _ => ⟨hhalt, fun i hi hen => ?_⟩, fun i hi hdis => ?_⟩
    · rw [hhalt]
      exact nofun
    · have hlevel : s.filled.t5.t6.t7.level i = s.level i + (s.burst i).length - 1 := by
        rw [State.level, ebLevel, State.ebAt_tick_of_room hlen hov hi, if_pos hen, List.length_tail,
          List.length_append, State.length_received]
        rfl
      omega
    · rw [State.ebAt_tick_of_room hlen hov hi, hdis]
      rfl

/-! ### The words sent -/

namespace State

variable {s : State} {i : Nat} {w : Word}

/-- Every tick that starts sends the Messages of its outbound slots (R127), whatever happens later. -/
theorem sevenSteps_tx (hrun : s.halt = .none) :
    s.tickStart.sevenSteps.outs.tx = some (perLink s.cfg.degree fun i =>
      encodeMessage s.cfg.toRawConfig (s.tickStart.t1.outAt i)) := by
  rw [← afterT3_tx]
  rcases sevenSteps_cases (s := s.tickStart) hrun with ⟨-, h7⟩ | ⟨-, -, h7⟩ <;> rw [h7]
  · rw [lastSteps_tx, t4_outs, afterT3]
  · rw [t4_outs, afterT3]

theorem outAt_tickStart (s : State) (i : Nat) : s.tickStart.outAt i = .sync := by
  refine (getD_perLink s.cfg.degree (fun _ => Message.sync) i .sync).trans ?_
  split <;> rfl

/-- A word that names link `i` is staged in its slot (R125). -/
theorem outAt_t1_of_named (hlen : s.out.length = s.cfg.degree) (hw : s.ports.user = some w)
    (h1 : w ≠ 1) (hi : w / 2 % 8 < s.cfg.degree) :
    s.t1.outAt (w / 2 % 8) = decodeMessage s.cfg.toRawConfig w := by
  rw [t1_of_waiting hw, ingest_of_neighbor (s := s.userRead.2) h1 hi, decodeMessage_of_ne_one h1]
  exact (outAt_stage (s := s.userRead.2) hlen hi _ _).trans (if_pos rfl)

/-- The slot of a link that no word names stays as it is. -/
theorem outAt_t1_of_not_named (hlen : s.out.length = s.cfg.degree)
    (h : ∀ w, s.ports.user = some w → w = 1 ∨ w / 2 % 8 ≠ i) : s.t1.outAt i = s.outAt i := by
  cases hw : s.ports.user with
  | none => rw [t1_of_none hw]; rfl
  | some w =>
    rw [t1_of_waiting hw]
    by_cases h1 : w = 1
    · rw [h1, ingest_one]
      rfl
    · by_cases hd : s.cfg.degree ≤ w / 2 % 8
      · rw [ingest_of_badNeighbor (s := s.userRead.2) h1 hd]
        rfl
      · rw [ingest_of_neighbor (s := s.userRead.2) h1 (Nat.lt_of_not_le hd)]
        exact (outAt_stage (s := s.userRead.2) hlen (Nat.lt_of_not_le hd) _ _).trans
          (if_neg ((h w hw).resolve_left h1).symm)

end State

/-- Settles O42: T1 stages the producer's word on the link it names, every other slot holds `Sync`. -/
theorem aTickSendsOneWordOnEveryLink : Obligations.ATickSendsOneWordOnEveryLink := by
  intro s hrun hidle hword
  have hlen : s.tickStart.out.length = s.tickStart.cfg.degree := length_perLink ..
  refine ⟨_, _, State.tick_running hrun hidle, State.sevenSteps_tx hrun, length_perLink ..,
    fun i hi => ?_⟩
  rw [getElem?_perLink, if_pos hi]
  refine ⟨fun w hw h1 hwi => ?_, fun h => ?_⟩
  · subst hwi
    rw [State.outAt_t1_of_named hlen hw h1 hi]
    exact congrArg some (encodeMessage_decodeMessage (hword w hw) h1)
  · rw [State.outAt_t1_of_not_named hlen h, State.outAt_tickStart]
    rfl

/-! ### Forwarding in the tick of arrival -/

/-- Settles O43: T5 finds the word that T4 put into the empty buffer at its front. -/
theorem aMessageThatFindsAnEmptyBufferIsForwardedAtOnce :
    Obligations.AMessageThatFindsAnEmptyBufferIsForwardedAtOnce := by
  intro s i w ws hs hrun hidle hov hi hen hnil hburst h1
  have hlen := hs.shape.eb
  have hi' : i < s.filled.cfg.degree := by simpa using hi
  have hi8 : i < 8 := hi.trans_le s.cfg.wf.1.2
  have heb : s.filled.ebAt i = .data i (w / 16 % 2 ^ s.cfg.payloadBits) ::
      ws.map fun v => retag i (decodeMessage s.cfg.toRawConfig v) := by
    rw [(State.filled_of_room hlen hov).2 i hi, if_pos hen, hnil, State.received, hburst, List.map_cons,
      retag_decodeMessage, if_neg h1, List.nil_append]
  refine ⟨_, State.tick_of_room hrun hidle hlen hov, ?_, ?_⟩
  · rw [State.lastSteps_warn]
    exact (State.warn_t5 hi').trans (congrArg some (State.starved_of_cons heb))
  · rw [State.lastSteps_fwd]
    refine List.mem_append_right _ (List.mem_flatMap.mpr ⟨i, State.mem_links.mpr hi', ?_⟩)
    rw [State.drained_fst, State.enabled_filled, hen, heb]
    simp only [if_true, List.head?_cons, forwarded, encodeMessage_data, Nat.mod_mod, State.filled_cfg,
      List.mem_singleton]
    rw [Nat.mod_eq_of_lt hi8]

end Sys2Proof.Machine
end

section
/-! PROOF. R145 of 43_channel_controller.md (O44): `QuietAt` describes the block after k ticks from reset in
which no word came from the producer or a neighbor, and one more such tick leads from k to k + 1. -/

namespace Sys2Proof.Machine

namespace State

variable {s t : State} {i k : Nat} {c : Config} {act : ActStatus}

/-- FC_RUN on a degree and levels in range fails only by the actuator's answer (R11, R171 to R175). -/
theorem fcRun_fst {ls : List Nat} (hact : s.ports.act ≠ .reject) (hd : s.fcDegree ≤ s.cfg.degree)
    (hlen : ls.length = s.cfg.degree) (hle : ∀ l ∈ ls, l ≤ s.cfg.b) : (s.fcRun ls).1 = true := by
  have he := pidVariantsAgreeForTheFrequencyController s.cfg s.fcDegree ls hd hlen hle
    s.cfg.pidVariant
  rcases s.pidRun_cases (fcSetpoint s.cfg.toRawConfig s.fcDegree)
    (fxOfInt s.cfg.toRawConfig (fcActual ls)) with ⟨hnone, -⟩ | ⟨e, -, hp⟩
  · exact absurd (hnone.symm.trans he) nofun
  · simp only [fcRun, hp]
    rcases fcApply_cases ((s.pidMove e).setLastCorr (s.pidValue e))
      (fcCandidate s.cfg.toRawConfig s.divState (s.pidValue e)) with ⟨-, h⟩ | ⟨-, h⟩ | ⟨hr, -⟩
    · rw [h]
    · rw [h]
    · exact absurd hr hact

/-- T7 leaves `Ok` in RESULT when the levels are in range and the actuator does not reject (R140). -/
theorem lastSteps_result (hact : s.ports.act ≠ .reject) (hok : s.result = .ok)
    (hle : ∀ i < s.cfg.degree, (s.t5.ebAt i).length ≤ s.cfg.b) : s.t5.t6.t7.result = .ok := by
  have hlevels : ∀ l ∈ s.t5.t6.levels, l ≤ s.cfg.b := by
    intro l hl
    obtain ⟨i, hi, rfl⟩ := mem_perLink.mp hl
    exact hle i hi
  have hfc : ((s.t5.t6.fcSetDegree s.t5.t6.liveCount).fcRun s.t5.t6.levels).1 = true :=
    fcRun_fst hact (liveCount_le _) (length_perLink ..) hlevels
  rw [t7_result, hfc]
  exact hok

/-- The level of link `i` after `k` ticks from reset in which nothing came. -/
def quietLevel (c : Config) (k i : Nat) : Nat :=
  if c.enableMask.testBit i then c.b / 2 - k else c.b / 2

theorem quietLevel_le (c : Config) (k i : Nat) : quietLevel c k i ≤ c.b := by
  unfold quietLevel
  split <;> omega

/-- What the `k`-th tick from reset in which nothing came gives to its ports, and what it returns (R145). -/
structure QuietTick (c : Config) (k : Nat) (t : State) : Prop where
  ret : t.ret = .result .ok
  tx : t.outs.tx = some (List.replicate c.degree 1)
  fwd : t.outs.fwd = []
  warn : ∀ i < c.degree,
    t.outs.warn[i]? = some (c.enableMask.testBit i && decide (c.b / 2 < k))
  fcDegree : c.liveThreshold ≤ k → t.fcDegree = 0

/-- The block between ticks, after `k` ticks from reset in which nothing came. -/
structure QuietAt (c : Config) (act : ActStatus) (k : Nat) (s : State) : Prop where
  cfg : s.cfg = c
  halt : s.halt = .none
  idle : s.seq = .idle
  ports : s.ports = ⟨none, List.replicate c.degree [], act⟩
  length_eb : s.eb.length = c.degree
  eb : ∀ i < c.degree, s.ebAt i = List.replicate (quietLevel c k i) .sync
  live : ∀ i < c.degree, s.liveAt i = min k c.liveThreshold
  last : 0 < k → s.QuietTick c k

namespace QuietAt

theorem reset (c : Config) (act : ActStatus) (es : List Event) :
    QuietAt c act 0 { resetIn c with
      ports := ⟨none, List.replicate c.degree [], act⟩, schedule := es } where
  cfg := rfl
  halt := rfl
  idle := rfl
  ports := rfl
  length_eb := List.length_replicate
  eb i hi := by simp [ebAt, resetIn, quietLevel, hi]
  live i hi := by simp [liveAt, resetIn, hi]
  last h := absurd h (Nat.lt_irrefl 0)

theorem burst (h : s.QuietAt c act k) (i : Nat) : s.burst i = [] := by
  rw [State.burst, h.ports]
  by_cases hi : i < c.degree <;> simp [hi]

theorem received (h : s.QuietAt c act k) (i : Nat) : s.received i = [] := by
  rw [State.received, h.burst, List.map_nil]

theorem level (h : s.QuietAt c act k) (hi : i < c.degree) : s.level i = quietLevel c k i := by
  rw [State.level, ebLevel, h.eb i hi, List.length_replicate]

theorem not_overflows (h : s.QuietAt c act k) : ¬ s.Overflows := by
  obtain rfl := h.cfg
  rintro ⟨i, hi, -, hlt⟩
  rw [h.burst, h.level hi] at hlt
  exact absurd hlt (quietLevel_le _ _ _).not_gt

theorem ebAt_filled (h : s.QuietAt c act k) (hi : i < c.degree) :
    s.filled.ebAt i = List.replicate (quietLevel c k i) .sync := by
  obtain rfl := h.cfg
  rw [(filled_of_room h.length_eb h.not_overflows).2 i hi, h.received, List.append_nil, ite_self,
    h.eb i hi]

/-- T5 pops one Message of each enabled buffer that has one. -/
theorem ebAt_t5 (h : s.QuietAt c act k) (hi : i < c.degree) :
    s.filled.t5.ebAt i = List.replicate (quietLevel c (k + 1) i) .sync := by
  obtain rfl := h.cfg
  rw [State.ebAt_t5 (by simpa using hi), h.ebAt_filled hi, List.tail_replicate, enabled_filled, enabled,
    quietLevel, quietLevel]
  split <;> rfl

theorem starved_filled (h : s.QuietAt c act k) (hi : i < c.degree) :
    s.filled.starved i = (c.enableMask.testBit i && decide (c.b / 2 < k + 1)) := by
  obtain rfl := h.cfg
  rw [Bool.eq_iff_iff, starved_iff, enabled_filled, enabled, h.ebAt_filled hi, Bool.and_eq_true,
    decide_eq_true_eq, List.replicate_eq_nil_iff]
  refine and_congr_right fun he => ?_
  rw [quietLevel, if_pos he]
  omega

/-- The fronts popped are all `Sync`, so that none is forwarded (R135). -/
theorem fwd_t5 (h : s.QuietAt c act k) : s.filled.t5.outs.fwd = [] := by
  obtain rfl := h.cfg
  have hfwd : s.filled.outs.fwd = [] := by rw [filled, t4_outs, afterT3_fwd]
  rw [State.fwd_t5, hfwd, List.nil_append, List.flatMap_eq_nil_iff]
  intro i hi
  rw [drained_fst, h.ebAt_filled (by simpa using mem_links.mp hi), List.head?_replicate]
  split
  · split <;> rfl
  · rfl

theorem liveAt_filled (h : s.QuietAt c act k) (hi : i < c.degree) :
    s.filled.liveAt i = min (k + 1) c.liveThreshold := by
  obtain rfl := h.cfg
  have hlive : s.filled.liveAt i = s.afterT3.liveAt i := by rw [filled, liveAt, t4_live, liveAt]
  rw [hlive, liveAt_afterT3 hi, h.burst, List.length_nil, nextLive_zero, h.live i hi,
    RawConfig.liveMax]
  omega

/-- From the threshold on no link is live (R114, R139). -/
theorem liveCount_filled (h : s.QuietAt c act k) (hk : c.liveThreshold ≤ k + 1) :
    s.filled.liveCount = 0 := by
  obtain rfl := h.cfg
  refine List.countP_eq_zero.mpr fun i hi => ?_
  have hlive := h.liveAt_filled (i := i) (by simpa using mem_links.mp hi)
  simp only [active, hlive, filled_cfg, Bool.and_eq_true, decide_eq_true_eq]
  omega

theorem ports_filled (h : s.QuietAt c act k) : s.filled.ports = s.ports := by
  obtain rfl := h.cfg
  have hrx : perLink s.cfg.degree s.unread = s.ports.rx := by
    rw [h.ports, ← perLink_const]
    refine List.map_congr_left fun i hi => ?_
    simp [unread, h.ports, List.mem_range.mp hi]
  rw [filled, t4_ports, afterT3_ports, hrx, h.ports]

theorem t1_tickStart (h : s.QuietAt c act k) :
    s.tickStart.t1 = (s.tickStart.goto .t2).answer .none :=
  t1_of_none (by rw [tickStart_ports, h.ports])

/-- `Sync` goes out on every link (R127). -/
theorem tx_filled (h : s.QuietAt c act k) :
    s.filled.outs.tx = some (List.replicate c.degree 1) := by
  obtain rfl := h.cfg
  have hout : ∀ i, s.tickStart.t1.outAt i = .sync := fun i => by
    rw [h.t1_tickStart]
    exact s.outAt_tickStart i
  simp only [filled, t4_outs, afterT3_tx, hout]
  exact congrArg some (perLink_const ..)

theorem result_filled (h : s.QuietAt c act k) : s.filled.result = .ok := by
  obtain rfl := h.cfg
  rw [(filled_of_room h.length_eb h.not_overflows).1]
  exact (afterT3_result s).trans (by rw [h.t1_tickStart]; rfl)

/-- One more tick in which nothing comes. -/
theorem tick (h : s.QuietAt c act k) (hact : act ≠ .reject) :
    ∃ t, exec .tick s = .next t ∧ t.schedule = s.schedule ∧ t.QuietAt c act (k + 1) := by
  obtain rfl := h.cfg
  have hact' : s.filled.ports.act ≠ .reject := by rwa [h.ports_filled, h.ports]
  have hle : ∀ i < s.filled.cfg.degree, (s.filled.t5.ebAt i).length ≤ s.filled.cfg.b := by
    intro i hi
    rw [filled_cfg] at hi ⊢
    rw [h.ebAt_t5 hi, List.length_replicate]
    exact quietLevel_le _ _ _
  refine ⟨_, tick_of_room h.halt h.idle h.length_eb h.not_overflows, by simp,
    { cfg := by simp
      halt := (lastSteps_halt _).trans (filled_halt_of_room h.halt h.length_eb h.not_overflows)
      idle := t7_seq _
      ports := ?_, length_eb := ?_, eb := fun i hi => ?_, live := fun i hi => ?_, last := fun _ => ?_ }⟩
  · rw [lastSteps_ports, h.ports_filled, h.ports]
  · rw [lastSteps_eb]
    exact (length_perLink ..).trans (by rw [filled_cfg])
  · rw [ebAt, lastSteps_eb, ← ebAt, h.ebAt_t5 hi]
  · rw [liveAt, lastSteps_live, ← liveAt, h.liveAt_filled hi]
  · exact
      { ret := by rw [t7_ret, lastSteps_result hact' h.result_filled hle]
        tx := by rw [lastSteps_tx, h.tx_filled]
        fwd := by rw [lastSteps_fwd, h.fwd_t5]
        warn := fun i hi => by
          rw [lastSteps_warn, warn_t5 (by simpa using hi), h.starved_filled hi]
        fcDegree := fun hk => (lastSteps_fcDegree _).trans (h.liveCount_filled hk) }

end QuietAt

end State

/-- Ticks in which nothing comes, one after the other. -/
theorem core_run_quiet {c : Config} {act : ActStatus} (hact : act ≠ .reject) (n : Nat) :
    ∀ {k : Nat} {s : State}, s.QuietAt c act k → s.schedule = List.replicate n (.op .tick) →
      ∃ t, Sys2Proof.core.run n s = .next t ∧ t.QuietAt c act (k + n) := by
  induction n with
  | zero => exact fun {k s} h _ => ⟨s, rfl, h⟩
  | succ n ih =>
    intro k s h hs
    have hnext : ({ s with schedule := List.replicate n (.op .tick) } : State).QuietAt c act k :=
      { h with last := fun hk => { h.last hk with } }
    obtain ⟨t, htick, hsched, ht⟩ := hnext.tick hact
    have hstep : step s = .next t :=
      ((aStepRunsTheDecodedInstruction s .tick _ rfl rfl).1 hs).trans htick
    obtain ⟨u, hrun, hu⟩ := ih ht hsched
    exact ⟨u, (core_run_succ n hstep).trans hrun, by rwa [Nat.add_right_comm] at hu⟩

/-- Settles O44: `QuietAt` holds at reset and says after k ticks what is stated. -/
theorem withoutTrafficLinksEmptyAndGoInactive : Obligations.WithoutTrafficLinksEmptyAndGoInactive := by
  intro c k act hk hact
  obtain ⟨t, hrun, ht⟩ := core_run_quiet hact k (State.QuietAt.reset c act _) rfl
  rw [Nat.zero_add] at ht
  obtain ⟨hret, htx, hfwd, hwarn, hdeg⟩ := ht.last hk
  refine ⟨t, hrun, hret, ht.halt, htx, hfwd,
    fun i hi => ⟨ht.live i hi, fun hen => ?_, fun hdis => ?_⟩, hdeg⟩
  · have hbit : c.enableMask.testBit i = true := by rw [← ht.cfg]; exact hen
    rw [ht.level hi, hwarn i hi, State.quietLevel, hbit]
    exact ⟨rfl, rfl⟩
  · have hbit : c.enableMask.testBit i = false := by rw [← ht.cfg]; exact hdis
    rw [ht.level hi, hwarn i hi, State.quietLevel, hbit]
    exact ⟨rfl, rfl⟩

end Sys2Proof.Machine
end

section
/-! PROOF. The statements of 44_pid.md: PID_RUN follows its formula (O31, R151 to R156) and the
zero-error property (O33, R158). -/

namespace Sys2Proof.Machine

/-! ### Fixed-point arithmetic at 0 -/

theorem clampFx_zero (c : RawConfig) : clampFx c 0 = 0 :=
  clampFx_of_isFx (State.isFx_zero c)

theorem satAdd_zero {c : RawConfig} {a : Fx} (h : c.isFx a) : satAdd c a 0 = a := by
  rw [satAdd, Int.add_zero, clampFx_of_isFx h]

theorem zero_satAdd {c : RawConfig} {a : Fx} (h : c.isFx a) : satAdd c 0 a = a := by
  rw [satAdd, Int.zero_add, clampFx_of_isFx h]

theorem satSub_self (c : RawConfig) (a : Fx) : satSub c a a = 0 := by
  rw [satSub, Int.sub_self, clampFx_zero]

theorem satMul_zero (c : RawConfig) (a : Fx) : satMul c a 0 = 0 := by
  rw [satMul, Int.mul_zero, floorFrac, Int.zero_ediv, clampFx_zero]

/-- R10, R11: room for at least one Message leaves an integer bit, so 1 is an FX value. -/
theorem one_le_fxMax (c : Config) : 1 ≤ c.fxMax := by
  obtain ⟨⟨hd, -⟩, -, hb, -⟩ := c.wf
  have hlt : 1 < 2 ^ (c.fxBits - c.fxFrac - 1) :=
    lt_of_le_of_lt (Nat.mul_pos hd hb) c.degree_mul_b_lt
  have hle : 2 ^ (c.fxBits - c.fxFrac - 1) ≤ 2 ^ (c.fxBits - 1) :=
    Nat.pow_le_pow_right Nat.two_pos (by omega)
  have hcast : (1 : Int) < 2 ^ (c.fxBits - 1) := by exact_mod_cast hlt.trans_le hle
  exact Int.le_sub_one_of_lt hcast

/-- Both limits lie off 0, so only 0 clamps to 0. -/
theorem clampFx_eq_zero_iff (c : Config) (z : Int) : clampFx c.toRawConfig z = 0 ↔ z = 0 := by
  have hmax := one_le_fxMax c
  have hmin : c.fxMin = -c.fxMax - 1 := by simp only [RawConfig.fxMin, RawConfig.fxMax]; omega
  by_cases hlo : z < c.fxMin
  · rw [clampFx_of_lt hlo]
    exact iff_of_false (show c.fxMin ≠ 0 by omega) (by omega)
  by_cases hhi : c.fxMax < z
  · rw [clampFx_of_gt hhi]
    exact iff_of_false (show c.fxMax ≠ 0 by omega) (by omega)
  · rw [clampFx_of_isFx ⟨not_lt.mp hlo, not_lt.mp hhi⟩]

theorem floorFrac_eq_zero_iff (c : RawConfig) (z : Int) :
    floorFrac c z = 0 ↔ 0 ≤ z ∧ z < 2 ^ c.fxFrac := by
  have hpos : (0 : Int) < 2 ^ c.fxFrac := by positivity
  rw [floorFrac, Int.ediv_eq_iff_of_pos hpos]
  simp

/-- R158: a product is 0 exactly from 0 up to, not including, one step of the raw scale. -/
theorem satMul_eq_zero_iff (c : Config) (a b : Fx) :
    satMul c.toRawConfig a b = 0 ↔ 0 ≤ a * b ∧ a * b < 2 ^ c.fxFrac :=
  (clampFx_eq_zero_iff c _).trans (floorFrac_eq_zero_iff c.toRawConfig _)

/-! ### The error and the call -/

section Error

variable {c : RawConfig} {sp mv : Fx}

/-- The permissive variant clamps an error out of range (R151). -/
theorem pidError_of_permissive (hv : c.pidVariant = .permissive) (h : ¬ c.isFx (sp - mv)) :
    pidError c sp mv = some (clampFx c (sp - mv)) := by
  rw [pidError, if_neg h, hv]

/-- The strict variant fails on an error out of range (R151). -/
theorem pidError_of_strict (hv : c.pidVariant = .strict) (h : ¬ c.isFx (sp - mv)) :
    pidError c sp mv = none := by
  rw [pidError, if_neg h, hv]

theorem pidError_self (c : RawConfig) (x : Fx) : pidError c x x = some 0 := by
  have h := pidError_of_isFx (c := c) (sp := x) (mv := x)
  rw [Int.sub_self] at h
  exact h (State.isFx_zero c)

end Error

section Call

variable {s : State} {sp mv e : Fx}

/-- With an error PID_RUN moves the PID state and returns the output (R152 to R155). -/
theorem exec_pidRun_of_error (hrun : s.halt = .none)
    (he : pidError s.cfg.toRawConfig sp mv = some e) :
    exec (.pidRun sp mv) s =
      .next ((s.pidMove e).answer (.correction (some (s.pidValue e)))) := by
  rw [exec_pidRun_running hrun, State.pidRun, he]

/-- Without one it returns `None` and changes no register (R156). -/
theorem exec_pidRun_of_failure (hrun : s.halt = .none)
    (he : pidError s.cfg.toRawConfig sp mv = none) :
    exec (.pidRun sp mv) s = .next (s.answer (.correction none)) := by
  rw [exec_pidRun_running hrun, State.pidRun, he]

end Call

namespace State

variable {s : State}

/-- Error 0 leaves the integral (R152, R158). -/
theorem pidMove_zero (h : s.cfg.isFx s.integ) : s.pidMove 0 = { s with prevErr := 0 } := by
  rw [pidMove, satAdd_zero h]

/-- With error 0 and previous error 0 only the integral product is left of the output (R154, R158). -/
theorem pidValue_zero (h : s.cfg.isFx s.integ) (hprev : s.prevErr = 0) :
    s.pidValue 0 = satMul s.cfg.toRawConfig s.cfg.ki s.integ := by
  have hprod : s.cfg.isFx (satMul s.cfg.toRawConfig s.cfg.ki s.integ) := clampFx_isFx _ _
  rw [pidValue, pidOutput, hprev, satSub_self, satMul_zero, satMul_zero, satAdd_zero h,
    zero_satAdd hprod, satAdd_zero hprod]

end State

/-- PID_RUN on equal operands changes PREV_ERR and nothing else (R158). -/
theorem exec_pidRun_self {s : State} (hrun : s.halt = .none) (h : s.cfg.isFx s.integ) (x : Fx) :
    exec (.pidRun x x) s =
      .next { s with prevErr := 0, ret := .correction (some (s.pidValue 0)) } := by
  rw [exec_pidRun_of_error hrun (pidError_self _ x), State.pidMove_zero h]
  rfl

/-- With the previous error at 0 it changes no register and returns the integral product (R158). -/
theorem exec_pidRun_self_of_prevErr_zero {s : State} (hrun : s.halt = .none) (h : s.cfg.isFx s.integ)
    (hprev : s.prevErr = 0) (x : Fx) :
    exec (.pidRun x x) s =
      .next (s.answer (.correction (some (satMul s.cfg.toRawConfig s.cfg.ki s.integ)))) := by
  have hsame : ({ s with prevErr := 0 } : State) = s := by rw [← hprev]
  rw [exec_pidRun_of_error hrun (pidError_self _ x), State.pidMove_zero h, hsame,
    State.pidValue_zero h hprev]

/-! ### The obligations -/

/-- Settles O31: each case fixes the error, and the error fixes what the call does. -/
theorem pidRunFollowsItsFormula : Obligations.PidRunFollowsItsFormula := by
  intro s sp mv hrun
  refine ⟨fun hlo hhi => exec_pidRun_of_error hrun (pidError_of_isFx ⟨hlo, hhi⟩),
    fun hv => ⟨fun hlo => exec_pidRun_of_error (e := s.cfg.fxMin) hrun ?_,
      fun hhi => exec_pidRun_of_error (e := s.cfg.fxMax) hrun ?_⟩,
    fun hv hout => exec_pidRun_of_failure hrun (pidError_of_strict hv ?_)⟩
  · rw [pidError_of_permissive hv fun h => hlo.not_ge h.1, clampFx_of_lt hlo]
  · rw [pidError_of_permissive hv fun h => hhi.not_ge h.2, clampFx_of_gt hhi]
  · exact fun h => hout.elim h.1.not_gt h.2.not_gt

/-- Settles O33: both calls leave the integral, and the second finds the previous error at 0, so that
only the integral product is left of its output. -/
theorem zeroErrorLeavesTheIntegral : Obligations.ZeroErrorLeavesTheIntegral := by
  intro s x hrun hinv
  have hfx : s.cfg.isFx s.integ := hinv.control.integ
  refine ⟨_, _, exec_pidRun_self hrun hfx x, rfl, rfl,
    exec_pidRun_self_of_prevErr_zero ?_ ?_ ?_ x, rfl, rfl, rfl,
    satMul_eq_zero_iff s.cfg _ _⟩
  · exact hrun
  · exact hfx
  · rfl

end Sys2Proof.Machine
end

section
/-! PROOF. The statements of 45_frequency_controller.md: FC_SET_DEGREE (O35, R166), FC_RUN by the actuator's
answer (O36, R167 to R176) and FC_DEBUG (O37, R179). -/

namespace Sys2Proof.Machine

/-! ### The candidate and the register value -/

/-- The floor of an FX value between two integers lies between them. -/
theorem fxFloor_bounds {c : RawConfig} {m n : Int} {a : Fx} (hlo : fxOfInt c m ≤ a)
    (hhi : a ≤ fxOfInt c n) : m ≤ fxFloor c a ∧ fxFloor c a ≤ n := by
  have hpos : (0 : Int) < 2 ^ c.fxFrac := by positivity
  exact ⟨Int.le_ediv_of_mul_le hpos hlo, Int.ediv_le_of_le_mul hpos hhi⟩

section Sign

variable {c : RawConfig}

theorem fcCandidate_of_plus (h : c.actSign = .plus) (d corr : Fx) :
    fcCandidate c d corr =
      min (max (satAdd c d corr) (fxOfInt c c.divMin)) (fxOfInt c c.divMax) := by
  rw [fcCandidate, h]

theorem fcCandidate_of_minus (h : c.actSign = .minus) (d corr : Fx) :
    fcCandidate c d corr =
      min (max (satSub c d corr) (fxOfInt c c.divMin)) (fxOfInt c c.divMax) := by
  rw [fcCandidate, h]

end Sign

namespace State

variable {s : State} {ls : List Nat}

/-! ### The actuator's answer -/

/-- Busy: commit without a write (R172). -/
theorem fcApply_of_busy (h : s.ports.act = .busy) (cand : Fx) :
    s.fcApply cand = (true, (s.setDivState cand).setActw none) := by
  rw [fcApply, h]

/-- Ready: write and commit (R173). -/
theorem fcApply_of_ready (h : s.ports.act = .ready) (cand : Fx) :
    s.fcApply cand =
      (true, (s.setDivState cand).setActw (some (fxFloor s.cfg.toRawConfig cand))) := by
  rw [fcApply, h]

/-- Reject: write, commit nothing, fail (R174). -/
theorem fcApply_of_reject (h : s.ports.act = .reject) (cand : Fx) :
    s.fcApply cand = (false, s.setActw (some (fxFloor s.cfg.toRawConfig cand))) := by
  rw [fcApply, h]

/-! ### FC_RUN on a degree and levels in range -/

/-- The error of step 3: target less sum of levels, as FX (R167 to R169). -/
def fcError (s : State) (ls : List Nat) : Fx :=
  fxOfInt s.cfg.toRawConfig ((fcTarget s.cfg.toRawConfig s.fcDegree : Int) - (fcActual ls : Int))

/-- The state FC_RUN hands to the actuator: PID state and LAST_CORR moved (R171, R176). -/
def fcCorrected (s : State) (ls : List Nat) : State :=
  (s.pidMove (s.fcError ls)).setLastCorr (s.pidValue (s.fcError ls))

/-- In range the PID cannot fail, so FC_RUN always asks the actuator (R11, R170, R171). -/
theorem fcRun_of_inRange (hd : s.fcDegree ≤ s.cfg.degree) (hlen : ls.length = s.cfg.degree)
    (hle : ∀ l ∈ ls, l ≤ s.cfg.b) :
    s.fcRun ls = (s.fcCorrected ls).fcApply
      (fcCandidate s.cfg.toRawConfig s.divState (s.pidValue (s.fcError ls))) := by
  have he : pidError s.cfg.toRawConfig (fcSetpoint s.cfg.toRawConfig s.fcDegree)
      (fxOfInt s.cfg.toRawConfig (fcActual ls)) = some (s.fcError ls) :=
    pidVariantsAgreeForTheFrequencyController s.cfg s.fcDegree ls hd hlen hle s.cfg.pidVariant
  simp only [fcRun, pidRun, he, fcCorrected]

end State

/-! ### The obligations -/

/-- Settles O35: the rule of FC_SET_DEGREE in a running block, which stores without a test. -/
theorem setDegreeStoresTheCount : Obligations.SetDegreeStoresTheCount := fun _ d hrun =>
  exec_fcSetDegree_running hrun d

/-- Settles O36: in range the error is the exact difference and the PID goes on with it, so the outcome
is the actuator's answer to the clamped candidate and its floor. -/
theorem frequencyControllerRunMovesTheDivider :
    Obligations.FrequencyControllerRunMovesTheDivider := by
  intro s ls hrun _ hd hlen hle
  obtain ⟨hlo, hhi⟩ := fcCandidate_bounds s.cfg s.divState (s.pidValue (s.fcError ls))
  have hexec := exec_fcRun_running hrun ls
  rw [State.fcRun_of_inRange hd hlen hle] at hexec
  refine ⟨_, _, fun h => fcCandidate_of_plus h s.divState (s.pidValue (s.fcError ls)),
    fun h => fcCandidate_of_minus h _ _, fxFloor_spec _ _, fxFloor_bounds hlo hhi,
    fun hact => ?_, fun hact => ?_, fun hact => ?_⟩
  · rw [hexec, State.fcApply_of_busy (s := s.fcCorrected ls) hact]
    rfl
  · rw [hexec, State.fcApply_of_ready (s := s.fcCorrected ls) hact]
    rfl
  · rw [hexec, State.fcApply_of_reject (s := s.fcCorrected ls) hact]
    rfl

/-- Settles O37: FC_DEBUG only answers, in a halted block too. -/
theorem frequencyControllerDebugReads : Obligations.FrequencyControllerDebugReads := fun _ => rfl

end Sys2Proof.Machine
end

section
/-! PROOF. The statements of 60_exceptions.md: the two fatal errors and the debug read (O11, O39, O52), the
result of a whole tick by priority (O41), and what a debug read sees after an abandoned tick (O60). `dueStep`
is one step of the tick engine as a function, so that a run with no event to come is an iteration of it; a
state of a tick that a second trigger would abandon is `Underway`. -/

namespace Sys2Proof.Machine

/-! ### Fatal errors, second triggers, debug reads -/

/-- Settles O11: the code of each fatal error raises it. -/
theorem aFatalErrorHaltsTheBlock : Obligations.AFatalErrorHaltsTheBlock := by
  intro s hrun p hp
  simp only [List.mem_cons, List.not_mem_nil, or_false] at hp
  obtain rfl | rfl := hp
  · exact exec_tideFifoFull_running hrun
  · exact exec_tickOverrun_running hrun

namespace State

variable {s : State}

theorem debugRead_of_idle (h : s.seq = .idle) : s.debugRead = .snapshot s.snap := if_pos h

theorem debugRead_of_not_idle (h : s.seq ≠ .idle) : s.debugRead = .notServed := if_neg h

/-- A second trigger in a running block abandons the tick (R198). -/
theorem triggered_of_started (hrun : s.halt = .none) (h : s.seq ≠ .idle) : s.triggered = s.overrun :=
  (if_pos hrun).trans (if_neg h)

/-- A trigger starts a tick in a running block between ticks (R121). -/
theorem triggered_of_idle (hrun : s.halt = .none) (h : s.seq = .idle) : s.triggered = s.tickStart :=
  (if_pos hrun).trans (if_pos h)

theorem triggered_of_halted (hh : s.halt ≠ .none) : s.triggered = s.haltedTick := if_neg hh

/-- A trigger neither reads nor changes the events to come. -/
theorem triggered_with_schedule (s : State) (es : List Event) :
    ({ s with schedule := es } : State).triggered = { s.triggered with schedule := es } := by
  rcases trigger_cases s with ⟨hh, ht, -⟩ | ⟨hrun, hq, ht, -⟩ | ⟨hrun, hq, ht, -⟩ <;> rw [ht]
  · exact triggered_of_halted hh
  · exact triggered_of_started hrun hq
  · exact triggered_of_idle hrun hq

end State

/-- The event of a trigger at the head of the schedule. -/
theorem step_trigger (s : State) (es : List Event) :
    step { s with schedule := .trigger :: es } = .next { s.triggered with schedule := es } :=
  congrArg Host.Outcome.next (s.triggered_with_schedule es)

/-- Settles O52: the answer of `debugRead` at each `STEP`. -/
theorem aDebugReadSeesTheLastTickBoundary : Obligations.ADebugReadSeesTheLastTickBoundary := by
  refine fun s => ⟨fun h => ?_, fun h => ?_⟩
  · rw [← State.debugRead_of_idle h]
    rfl
  · rw [← State.debugRead_of_not_idle h]
    rfl

/-- Settles O39: TICK and the event of a trigger are both `overrun`. -/
theorem aTriggerDuringATickHaltsTheBlock : Obligations.ATriggerDuringATickHaltsTheBlock := by
  rintro s hrun hstarted t rfl
  refine ⟨congrArg Host.Outcome.next ((if_pos hrun).trans (if_neg hstarted)), fun es => ?_⟩
  rw [step_trigger, State.triggered_of_started hrun hstarted]
  rfl

/-! ### The result of a tick -/

/-- TICK as one operation keeps the invariant, as the event that invokes it does. -/
theorem State.Inv.of_tick {s t : State} (hs : s.Inv) (h : exec .tick s = .next t) : t.Inv := by
  have hs' : ({ s with schedule := .op .tick :: s.schedule } : State).Inv :=
    hs.of_sameBlock (s := s) rfl
  refine everyStepKeepsTheInvariant _ t hs' ?_
  exact ((aStepRunsTheDecodedInstruction _ .tick s.schedule rfl rfl).1 rfl).trans h

namespace State

variable {s : State} {w : Word}

/-- T1 of a tick raises the error of a Sync word (R123). -/
theorem tickStart_t1_result_of_one (h : s.ports.user = some 1) :
    s.tickStart.t1.result = .syncMessageFromUserCode := by
  rw [t1_of_waiting (s := s.tickStart) h, ingest_one]
  rfl

/-- T1 of a tick raises the error of a word that names no link (R124). -/
theorem tickStart_t1_result_of_badNeighbor (h : s.ports.user = some w) (h1 : w ≠ 1)
    (hd : s.cfg.degree ≤ w / 2 % 8) : s.tickStart.t1.result = .invalidNeighbor := by
  rw [t1_of_waiting (s := s.tickStart) h, ingest_of_badNeighbor (s := s.tickStart.userRead.2) h1 hd]
  rfl

/-- T1 of a tick raises nothing when no word waits or the word is staged (R122, R125). -/
theorem tickStart_t1_result_of_valid (h : s.ports.user = none ∨
    ∃ w, s.ports.user = some w ∧ w ≠ 1 ∧ w / 2 % 8 < s.cfg.degree) :
    s.tickStart.t1.result = .ok := by
  rcases h with h | ⟨w, h, h1, hd⟩
  · rw [t1_of_none (s := s.tickStart) h]
    rfl
  · rw [t1_of_waiting (s := s.tickStart) h, ingest_of_neighbor (s := s.tickStart.userRead.2) h1 hd]
    rfl

/-- A rejected write makes FC_RUN fail, whatever the PID does (R174, R175). -/
theorem fcRun_fst_of_reject (hact : s.ports.act = .reject) (ls : List Nat) :
    (s.fcRun ls).1 = false := by
  rcases s.fcRun_cases ls with h | ⟨e, -, h⟩ <;> rw [h]
  rw [fcApply_of_reject (s := (s.pidMove e).setLastCorr (s.pidValue e)) hact]

/-- An earlier error keeps its place as the tick's result (R190). -/
theorem lastSteps_result_of_error (he : s.result ≠ .ok) : s.t5.t6.t7.result = s.result := by
  have hkeep : ∀ b, s.t5.t6.t7Result b = s.result := by
    rintro (_ | _)
    · exact if_neg he
    · rfl
  rw [t7_result, hkeep]

/-- With no earlier error a rejected write is the tick's result (R140, R174). -/
theorem lastSteps_result_of_reject (hact : s.ports.act = .reject) (hok : s.result = .ok) :
    s.t5.t6.t7.result = .frequencyControllerError := by
  rw [t7_result, fcRun_fst_of_reject (s := s.t5.t6.fcSetDegree s.t5.t6.liveCount) hact]
  exact if_pos hok

theorem lastSteps_lastError (s : State) : s.t5.t6.t7.lastError =
    if s.t5.t6.t7.result = .ok then s.lastError else s.t5.t6.t7.result := t7_lastError _

theorem afterT3_outs (s : State) : s.afterT3.outs =
    { Outs.nothing s.cfg.toRawConfig with tx := s.afterT3.outs.tx } := by
  rw [afterT3, threeSteps_eq]

@[simp] theorem filled_ports (s : State) : s.filled.ports = s.afterT3.ports := t4_ports _
@[simp] theorem filled_outs (s : State) : s.filled.outs = s.afterT3.outs := t4_outs _

theorem filled_user (s : State) : s.filled.ports.user = none := by rw [filled_ports, afterT3_ports]
theorem filled_act (s : State) : s.filled.ports.act = s.ports.act := by
  rw [filled_ports, afterT3_ports]

/-- A tick with overflow ends in the fatal error, with the snapshot of the last boundary (R133, R196). -/
theorem filled_eq_raiseFatal (hrun : s.halt = .none) (hlen : s.eb.length = s.cfg.degree)
    (hle : s.LevelsOk) (h : s.Overflows) :
    ∃ eb, s.filled = ({ s.afterT3 with eb := eb } : State).raiseFatal .tideFifoFull := by
  have hhalt := (filled_of_overflow hlen hle h).1
  obtain ⟨eb, -, h4 | h4⟩ := t4_cases s.afterT3
  · have hrun' : s.filled.halt = .none := (congrArg State.halt h4).trans (s.afterT3_halt.trans hrun)
    exact absurd (hhalt.symm.trans hrun') nofun
  · exact ⟨eb, h4⟩

/-- The result of a tick without overflow: the producer's error before the actuator's (R190). -/
theorem lastSteps_result_priority (hs : s.Inv) (hrun : s.halt = .none) (hidle : s.seq = .idle)
    (hov : ¬ s.Overflows) :
    (s.tickStart.t1.result ≠ .ok → s.filled.t5.t6.t7.result = s.tickStart.t1.result) ∧
    (s.tickStart.t1.result = .ok →
      (s.ports.act = .reject → s.filled.t5.t6.t7.result = .frequencyControllerError) ∧
      (s.ports.act ≠ .reject → s.filled.t5.t6.t7.result = .ok)) := by
  have hres : s.filled.result = s.tickStart.t1.result := by
    rw [(filled_of_room hs.shape.eb hov).1]
    exact s.afterT3_result
  have hlevels : ∀ i, (s.filled.t5.ebAt i).length ≤ s.filled.cfg.b := by
    have hinv := hs.of_tick (tick_of_room hrun hidle hs.shape.eb hov)
    have hle := levelsOk_iff.mp hinv.levels
    simpa [ebAt, lastSteps_eb] using hle
  rw [← hres, ← filled_act s]
  exact ⟨lastSteps_result_of_error, fun hok =>
    ⟨fun hact => lastSteps_result_of_reject hact hok,
      fun hact => lastSteps_result hact hok fun i _ => hlevels i⟩⟩

end State

/-- Settles O41: with overflow the tick ends in `filled` by the fatal error; without it T7 returns T1's
error, if any, before the actuator's. -/
theorem aTickReturnsTheErrorOfHighestPriority :
    Obligations.ATickReturnsTheErrorOfHighestPriority := by
  intro s hs hrun hidle
  have hlen := hs.shape.eb
  by_cases hov : s.Overflows
  · have htick := State.tick_of_overflow hrun hidle hlen hs.levels hov
    obtain ⟨eb, hfatal⟩ := State.filled_eq_raiseFatal hrun hlen hs.levels hov
    have houts : s.filled.outs =
        { Outs.nothing s.cfg.toRawConfig with tx := s.afterT3.outs.tx } := by
      rw [State.filled_outs, State.afterT3_outs]
    refine ⟨_, .tideFifoFull, htick, by rw [hfatal]; rfl, s.filled_user, fun _ => ?_,
      fun h => absurd hov h, nofun, fun _ => by rw [hfatal]; rfl,
      (hs.of_tick htick).errors.snapError⟩
    rw [houts]
    exact ⟨rfl, rfl, rfl, rfl⟩
  · have htick := State.tick_of_room hrun hidle hlen hov
    obtain ⟨herr, hok⟩ := State.lastSteps_result_priority hs hrun hidle hov
    have hlast : s.filled.lastError = s.lastError := by
      rw [(State.filled_of_room hlen hov).1, State.afterT3, State.threeSteps_eq]
    have hrec := s.filled.lastSteps_lastError
    rw [hlast] at hrec
    refine ⟨_, _, htick, State.t7_ret _, ?_, fun h => absurd h hov,
      fun _ => ⟨fun hw => ?_, fun w hw h1 hd => ?_, fun h => hok (State.tickStart_t1_result_of_valid h)⟩,
      fun h => hrec.trans (if_pos h), fun h => hrec.trans (if_neg h),
      (hs.of_tick htick).errors.snapError⟩
    · rw [State.lastSteps_ports, State.filled_user]
    · have h := State.tickStart_t1_result_of_one hw
      exact (herr (by rw [h]; nofun)).trans h
    · have h := State.tickStart_t1_result_of_badNeighbor hw h1 hd
      exact (herr (by rw [h]; nofun)).trans h

/-! ### The tick in single steps -/

namespace State

/-- One step of the tick engine in a running block: the step that `STEP` names (R22). -/
def dueStep (s : State) : State :=
  match s.seq with
  | .idle => s
  | .t1 => s.t1
  | .t2 => s.t2
  | .t3 => s.t3
  | .t4 => s.t4
  | .t5 => s.t5
  | .t6 => s.t6
  | .t7 => s.t7

end State

/-- With no event to come a step is `dueStep`. -/
theorem step_eq_dueStep {s : State} (hs : s.schedule = []) (h : s.halt ≠ .none → s.seq = .idle) :
    step s = .next s.dueStep := by
  have due {i : Instr} {u : State} (hd : dueInstr s.seq = some i)
      (hx : s.halt = .none → exec i s = .next u) : step s = .next u := by
    refine (step_due hs hd).trans (hx (by_contra fun hh => ?_))
    rw [h hh] at hd
    cases hd
  unfold State.dueStep
  cases hq : s.seq with
  | idle => exact step_idle hs hq
  | t1 => exact due (by rw [hq]; rfl) exec_tickT1_running
  | t2 => exact due (by rw [hq]; rfl) exec_tickT2_running
  | t3 => exact due (by rw [hq]; rfl) exec_tickT3_running
  | t4 => exact due (by rw [hq]; rfl) exec_tickT4_running
  | t5 => exact due (by rw [hq]; rfl) exec_tickT5_running
  | t6 => exact due (by rw [hq]; rfl) exec_tickT6_running
  | t7 => exact due (by rw [hq]; rfl) exec_tickT7_running

@[simp] theorem State.dueStep_schedule (s : State) : s.dueStep.schedule = s.schedule := by
  unfold dueStep
  split <;> simp

/-- A run with no event to come iterates `dueStep`. -/
theorem core_run_eq_iterate (k : Nat) : ∀ {s : State}, s.schedule = [] → s.Inv →
    Sys2Proof.core.run k s = .next (State.dueStep^[k] s) := by
  induction k with
  | zero => exact fun _ _ => rfl
  | succ k ih =>
    intro s hs hinv
    have hstep := step_eq_dueStep hs hinv.errors.idle
    rw [core_run_succ k hstep, Function.iterate_succ_apply]
    exact ih (by simpa) (everyStepKeepsTheInvariant s _ hinv hstep)

namespace State

variable {s u : State} {k : Nat}

/-- `u` is a state of the tick that started in `s`, before that tick ends: a second trigger there is the
re-entry of R198. -/
structure Underway (s u : State) : Prop where
  running : u.halt = .none
  started : u.seq ≠ .idle
  boundary : u.boundary = s.boundary

namespace Underway

theorem tickStart (hrun : s.halt = .none) : s.Underway s.tickStart := ⟨hrun, nofun, rfl⟩

theorem t1 (h : s.Underway u) : s.Underway u.t1 :=
  ⟨by simpa using h.running, by simp, by rw [t1_frame]; exact h.boundary⟩

theorem t2 (h : s.Underway u) : s.Underway u.t2 := ⟨h.running, nofun, h.boundary⟩
theorem t3 (h : s.Underway u) : s.Underway u.t3 := ⟨h.running, nofun, h.boundary⟩
theorem t5 (h : s.Underway u) : s.Underway u.t5 := ⟨h.running, nofun, h.boundary⟩
theorem t6 (h : s.Underway u) : s.Underway u.t6 := ⟨h.running, nofun, h.boundary⟩

theorem afterT3 (hrun : s.halt = .none) : s.Underway s.afterT3 := (tickStart hrun).t1.t2.t3

theorem filled (hrun : s.halt = .none) (hlen : s.eb.length = s.cfg.degree) (h : ¬ s.Overflows) :
    s.Underway s.filled := by
  obtain ⟨hrun', -, hb⟩ := afterT3 hrun
  rw [(filled_of_room hlen h).1]
  exact ⟨hrun', nofun, hb⟩

end Underway

theorem dueStep_tickStart (s : State) : s.tickStart.dueStep = s.tickStart.t1 := rfl
theorem dueStep_t1 (s : State) : s.t1.dueStep = s.t1.t2 := by rw [dueStep, t1_seq]
theorem dueStep_t2 (s : State) : s.t2.dueStep = s.t2.t3 := rfl
theorem dueStep_t3 (s : State) : s.t3.dueStep = s.t3.t4 := rfl
theorem dueStep_t5 (s : State) : s.t5.dueStep = s.t5.t6 := rfl

theorem dueStep_of_idle (h : s.seq = .idle) : s.dueStep = s := by rw [dueStep, h]

theorem dueStep_filled (h : s.filled.halt = .none) : s.filled.dueStep = s.filled.t5 := by
  have hq : s.filled.seq = .t5 := t4_seq h
  rw [dueStep, hq]

/-- The fourth step of the tick leads to `filled`. -/
theorem iterate_four_tickStart (s : State) : dueStep^[4] s.tickStart = s.filled := by
  simp only [Function.iterate_succ_apply, Function.iterate_zero_apply, dueStep_tickStart, dueStep_t1,
    dueStep_t2, dueStep_t3]
  rfl

/-- T4 alone can end a tick early, so it is underway until then (R22, R133). -/
theorem underway_of_lt_four (hrun : s.halt = .none) (hk : k < 4) :
    s.Underway (dueStep^[k] s.tickStart) := by
  have h0 := Underway.tickStart hrun
  interval_cases k <;> simp only [Function.iterate_succ_apply, Function.iterate_zero_apply,
    dueStep_tickStart, dueStep_t1, dueStep_t2]
  · exact h0
  · exact h0.t1
  · exact h0.t1.t2
  · exact h0.t1.t2.t3

/-- A tick whose T4 found room is underway until its T7. -/
theorem underway_of_filled (h : s.Underway s.filled) (hk : k ≤ 2) :
    s.Underway (dueStep^[k] s.filled) := by
  interval_cases k <;> simp only [Function.iterate_succ_apply, Function.iterate_zero_apply,
    dueStep_filled h.running, dueStep_t5]
  · exact h
  · exact h.t5
  · exact h.t5.t6

/-- Up to six steps after its trigger a tick is underway, unless T4 has run and ended it (R133). -/
theorem iterate_tickStart_cases (hs : s.Inv) (hrun : s.halt = .none) (hk : k ≤ 6) :
    (s.Underway (dueStep^[k] s.tickStart) ∧ ¬ (4 ≤ k ∧ s.Overflows)) ∨
      (dueStep^[k] s.tickStart = s.filled ∧ 4 ≤ k ∧ s.Overflows) := by
  by_cases h4 : k < 4
  · exact .inl ⟨underway_of_lt_four hrun h4, fun h => absurd h.1 h4.not_ge⟩
  · obtain ⟨j, rfl⟩ := Nat.exists_eq_add_of_le' (Nat.le_of_not_lt h4)
    rw [Function.iterate_add_apply, iterate_four_tickStart]
    by_cases hov : s.Overflows
    · obtain ⟨eb, hfatal⟩ := filled_eq_raiseFatal hrun hs.shape.eb hs.levels hov
      have hstill : s.filled.dueStep = s.filled := dueStep_of_idle (by rw [hfatal]; rfl)
      exact .inr ⟨Function.iterate_fixed hstill j, by omega, hov⟩
    · exact .inl ⟨underway_of_filled (.filled hrun hs.shape.eb hov) (by omega), fun h => hov h.2⟩

/-- A second trigger in a tick underway halts the block with the snapshot of the last boundary (R196,
R198). -/
theorem Underway.triggered (h : s.Underway u) : u.triggered.halt = .tickOverrun ∧
    u.triggered.debugRead = .snapshot (s.boundary.halted .tickOverrun) := by
  rw [triggered_of_started h.running h.started, ← h.boundary]
  exact ⟨rfl, rfl⟩

/-- A second trigger after an overflow in T4 leaves that halt and its snapshot (R133, R197). -/
theorem filled_triggered_of_overflow (hs : s.Inv) (hrun : s.halt = .none) (hov : s.Overflows) :
    s.filled.triggered.halt = .tideFifoFull ∧
      s.filled.triggered.debugRead = .snapshot (s.boundary.halted .tideFifoFull) := by
  obtain ⟨eb, hfatal⟩ := filled_eq_raiseFatal hrun hs.shape.eb hs.levels hov
  rw [← (Underway.afterT3 hrun).boundary, hfatal, triggered_of_halted (by simp)]
  exact ⟨rfl, rfl⟩

/-- A second trigger, or an overflow before it, leaves the block halted with the snapshot from before the
tick (R63, R196). -/
theorem triggered_iterate_tickStart (hs : s.Inv) (hrun : s.halt = .none) (hidle : s.seq = .idle)
    (hk : k ≤ 6) (hu : dueStep^[k] s.tickStart = u) :
    (u.triggered.halt = .tideFifoFull ↔ 4 ≤ k ∧ s.Overflows) ∧
      (u.triggered.halt ≠ .tideFifoFull → u.triggered.halt = .tickOverrun) ∧
      u.triggered.debugRead = .snapshot (s.snap.halted u.triggered.halt) := by
  have hsnap : s.snap = s.boundary := hs.snap.beforeT7 (by rw [hidle]; nofun)
  rw [hsnap]
  rcases iterate_tickStart_cases hs hrun hk with ⟨hv, hno⟩ | ⟨hv, hov⟩
  · obtain ⟨hhalt, hread⟩ := (hu ▸ hv).triggered
    rw [hhalt]
    exact ⟨iff_of_false nofun hno, fun _ => rfl, hread⟩
  · obtain ⟨hhalt, hread⟩ := filled_triggered_of_overflow hs hrun hov.2
    rw [← hu, hv, hhalt]
    exact ⟨iff_of_true rfl hov, fun h => absurd rfl h, hread⟩

end State

/-- A trigger and then a debug read. -/
theorem core_run_trigger_debugRead (s : State) :
    Sys2Proof.core.run 2 { s with schedule := [.trigger, .op .dbgRead] } =
      .next (({ s.triggered with schedule := [] } : State).answer s.triggered.debugRead) := by
  rw [core_run_succ 1 (step_trigger s [.op .dbgRead])]
  exact core_run_succ 0 ((aStepRunsTheDecodedInstruction _ .dbgRead [] rfl rfl).1 rfl)

/-- A trigger between ticks and then `k` steps of the tick engine. -/
theorem core_run_trigger {s : State} (hs : s.Inv) (hrun : s.halt = .none) (hidle : s.seq = .idle)
    (k : Nat) : Sys2Proof.core.run (k + 1) { s with schedule := [.trigger] } =
      .next (State.dueStep^[k] ({ s with schedule := [] } : State).tickStart) := by
  have hinv : ({ s with schedule := [] } : State).Inv := hs.of_sameBlock (s := s) rfl
  rw [core_run_succ k (step_trigger s []), State.triggered_of_idle hrun hidle]
  exact core_run_eq_iterate k rfl (hinv.tickStart hrun hidle)

/-- Settles O60: the second trigger finds the tick underway, or ended by T4. -/
theorem anAbandonedTickLeavesTheLastSnapshot : Obligations.AnAbandonedTickLeavesTheLastSnapshot := by
  intro s k hs hrun hidle hk
  have hs' : ({ s with schedule := [] } : State).Inv := hs.of_sameBlock (s := s) rfl
  exact ⟨_, _, core_run_trigger hs hrun hidle k, core_run_trigger_debugRead _,
    State.triggered_iterate_tickStart (s := { s with schedule := [] }) hs' hrun hidle hk rfl⟩

end Sys2Proof.Machine
end

section
/-! PROOF. The statement of 70_reset_and_hazards.md: what RESET gives is the reset state but for the ports
and the schedule, and each register of that state is read off its definition. -/

namespace Sys2Proof.Machine

/-- RESET gives the reset state of the configuration at hand, its empty outputs included, with the ports
and the schedule left (R42, R210, R211). -/
theorem State.afterReset_eq_resetIn (s : State) :
    s.afterReset = { State.resetIn s.cfg with ports := s.ports, schedule := s.schedule } := by
  rw [afterReset, perLink_const]
  rfl

theorem exec_reset_eq_resetIn (s : State) : exec .reset s =
    .next { State.resetIn s.cfg with ports := s.ports, schedule := s.schedule } :=
  congrArg _ s.afterReset_eq_resetIn

/-- Settles O50: each register holds what `State.resetIn` gives it; the counters of the block and of the
snapshot are seven copies of one array of zeros. -/
theorem resetSetsEveryRegister : Obligations.ResetSetsEveryRegister := by
  intro s
  refine ⟨_, exec_reset_eq_resetIn s, rfl, rfl, fun l (hl : l ∈ List.replicate 7 _) => ?_, ?_⟩
  · exact List.eq_of_mem_replicate hl
  · and_intros <;> rfl

end Sys2Proof.Machine
end
